-- ==== Sys2Proof/Word.lean ====
section
/-! DEFINITION. The word types of the block: 32-bit registers and command words (R90), bytes of the buffers and elements of
GF(2^8) (R110), 13-bit window offsets (R60). -/

namespace Sys2Proof

/-- A register or a command word (R62, R90). -/
abbrev Word := BitVec 32

/-- A buffer byte, a codeword, an immediate operand, an element of GF(2^8). -/
abbrev Byte := BitVec 8

/-- A byte offset in the 8192-byte window (R60). -/
abbrev Offset := BitVec 13

end Sys2Proof
end

