-- ==== Sys2Proof/Syntax.lean ====
section
/-! DEFINITION. The 21 commands of the command set QRC-1, one constructor per row of spec/opcode_table.json (R92). An operand is
an 8-bit immediate field of the command word (R91): every value of it is legal in form, and its range is checked when the
command executes (R92, R95). -/

namespace Sys2Proof

/-- The commands (R92). `a` is field A, bits [15:8], and `b` is field B, bits [23:16], of the word. -/
inductive Instr where
  /-- NOP (R220) -/
  | nop
  /-- GFMUL a, b (R116) -/
  | gfmul (a b : Byte)
  /-- GFDIV dividend, divisor (R117) -/
  | gfdiv (a b : Byte)
  /-- FMTBITS level, mask (R182) -/
  | fmtbits (a b : Byte)
  /-- VERFOR (R133) -/
  | verfor
  /-- CAPOF version (R134) -/
  | capof (a : Byte)
  /-- DENC (R145) -/
  | denc
  /-- RSGEN n (R157) -/
  | rsgen (a : Byte)
  /-- RSENC d, n (R158) -/
  | rsenc (a b : Byte)
  /-- MXINIT version (R171) -/
  | mxinit (a : Byte)
  /-- MXFIND (R173) -/
  | mxfind
  /-- MXSEP (R174) -/
  | mxsep
  /-- MXTIME (R175) -/
  | mxtime
  /-- MXDARK (R176) -/
  | mxdark
  /-- MXFMT level, mask (R181) -/
  | mxfmt (a b : Byte)
  /-- MXDATA (R186) -/
  | mxdata
  /-- MSKAPPLY mask (R204) -/
  | mskapply (a : Byte)
  /-- MSKSCORE mask (R205) -/
  | mskscore (a : Byte)
  /-- PENALTY (R206) -/
  | penalty
  /-- MSKSEL (R207) -/
  | msksel
  /-- ENCODE level (R221) -/
  | encode (a : Byte)
  deriving DecidableEq, Repr

/-- The mnemonic of spec/opcode_table.json (R92, R98). -/
def Instr.mnemonic : Instr → String
  | .nop => "NOP"
  | .gfmul _ _ => "GFMUL"
  | .gfdiv _ _ => "GFDIV"
  | .fmtbits _ _ => "FMTBITS"
  | .verfor => "VERFOR"
  | .capof _ => "CAPOF"
  | .denc => "DENC"
  | .rsgen _ => "RSGEN"
  | .rsenc _ _ => "RSENC"
  | .mxinit _ => "MXINIT"
  | .mxfind => "MXFIND"
  | .mxsep => "MXSEP"
  | .mxtime => "MXTIME"
  | .mxdark => "MXDARK"
  | .mxfmt _ _ => "MXFMT"
  | .mxdata => "MXDATA"
  | .mskapply _ => "MSKAPPLY"
  | .mskscore _ => "MSKSCORE"
  | .penalty => "PENALTY"
  | .msksel => "MSKSEL"
  | .encode _ => "ENCODE"

/-- The operands a mnemonic uses, in the order A, B of the assembler syntax (R98). -/
def Instr.operands : Instr → List Byte
  | .nop | .verfor | .denc | .mxfind | .mxsep | .mxtime | .mxdark | .mxdata | .penalty | .msksel => []
  | .capof a | .rsgen a | .mxinit a | .mskapply a | .mskscore a | .encode a => [a]
  | .gfmul a b | .gfdiv a b | .fmtbits a b | .rsenc a b | .mxfmt a b => [a, b]

/-- The level names that ENCODE, FMTBITS and MXFMT accept for their level operand (R98). -/
inductive LevelName where
  | L
  | M
  | Q
  | H
  deriving DecidableEq, Repr

/-- Low = 0, Medium = 1, Quartile = 2, High = 3 (R98, R177). -/
def LevelName.ordinal : LevelName → Byte
  | .L => 0#8
  | .M => 1#8
  | .Q => 2#8
  | .H => 3#8

end Sys2Proof
end

