-- ==== Sys2Proof/Decode.lean ====
section
/-! DEFINITION. The decoder of the Engine (R96), total on every 32-bit word and refusing by name, and after it the encoder
(R98). -/

namespace Sys2Proof

/-- Why a word is not legal in form (R93, R94). Both report IllegalCommand. -/
inductive Reject where
  /-- OPC is none of the 21 opcodes of R92. -/
  | unassignedOpcode
  /-- A field the opcode does not use, or C, is not 0. -/
  | nonzeroUnusedField
  deriving DecidableEq, Repr

/-- OPC, bits [7:0] (R90). -/
def fieldOpc (w : Word) : Byte := w.extractLsb' 0 8

/-- A, bits [15:8] (R90, R91). -/
def fieldA (w : Word) : Byte := w.extractLsb' 8 8

/-- B, bits [23:16] (R90, R91). -/
def fieldB (w : Word) : Byte := w.extractLsb' 16 8

/-- C, bits [31:24], reserved and 0 in every command (R90). -/
def fieldC (w : Word) : Byte := w.extractLsb' 24 8

/-- The mask of format CMD-N: A, B and C must be 0 (R90, R100). -/
def maskN : Word := 0xFFFFFFFF#32

/-- The mask of format CMD-A: A is used (R90, R100). -/
def maskA : Word := 0xFFFF00FF#32

/-- The mask of format CMD-AB: A and B are used (R90, R100). -/
def maskAB : Word := 0xFF0000FF#32

/-- The second check of R96: `(w & mask) == match`. -/
def checkForm (mask pattern w : Word) (i : Instr) : Except Reject Instr :=
  if w &&& mask = pattern then .ok i else .error .nonzeroUnusedField

/-- The decode procedure of R96 over the opcode map of R92 and R100. -/
def decode (w : Word) : Except Reject Instr :=
  match fieldOpc w with
  | 0x00#8 => checkForm maskN 0x00000000#32 w .nop
  | 0x01#8 => checkForm maskAB 0x00000001#32 w (.gfmul (fieldA w) (fieldB w))
  | 0x02#8 => checkForm maskAB 0x00000002#32 w (.gfdiv (fieldA w) (fieldB w))
  | 0x08#8 => checkForm maskAB 0x00000008#32 w (.fmtbits (fieldA w) (fieldB w))
  | 0x10#8 => checkForm maskN 0x00000010#32 w .verfor
  | 0x11#8 => checkForm maskA 0x00000011#32 w (.capof (fieldA w))
  | 0x20#8 => checkForm maskN 0x00000020#32 w .denc
  | 0x30#8 => checkForm maskA 0x00000030#32 w (.rsgen (fieldA w))
  | 0x31#8 => checkForm maskAB 0x00000031#32 w (.rsenc (fieldA w) (fieldB w))
  | 0x40#8 => checkForm maskA 0x00000040#32 w (.mxinit (fieldA w))
  | 0x41#8 => checkForm maskN 0x00000041#32 w .mxfind
  | 0x42#8 => checkForm maskN 0x00000042#32 w .mxsep
  | 0x43#8 => checkForm maskN 0x00000043#32 w .mxtime
  | 0x44#8 => checkForm maskN 0x00000044#32 w .mxdark
  | 0x45#8 => checkForm maskAB 0x00000045#32 w (.mxfmt (fieldA w) (fieldB w))
  | 0x46#8 => checkForm maskN 0x00000046#32 w .mxdata
  | 0x50#8 => checkForm maskA 0x00000050#32 w (.mskapply (fieldA w))
  | 0x51#8 => checkForm maskA 0x00000051#32 w (.mskscore (fieldA w))
  | 0x52#8 => checkForm maskN 0x00000052#32 w .penalty
  | 0x53#8 => checkForm maskN 0x00000053#32 w .msksel
  | 0x60#8 => checkForm maskA 0x00000060#32 w (.encode (fieldA w))
  | _ => .error .unassignedOpcode

/-- The word with fields C = 0, B, A and OPC, `OPC | A << 8 | B << 16` (R98). -/
def assemble (opc a b : Byte) : Word := 0#8 ++ b ++ a ++ opc

/-- The opcode of a command (R92). -/
def opcode : Instr → Byte
  | .nop => 0x00#8
  | .gfmul _ _ => 0x01#8
  | .gfdiv _ _ => 0x02#8
  | .fmtbits _ _ => 0x08#8
  | .verfor => 0x10#8
  | .capof _ => 0x11#8
  | .denc => 0x20#8
  | .rsgen _ => 0x30#8
  | .rsenc _ _ => 0x31#8
  | .mxinit _ => 0x40#8
  | .mxfind => 0x41#8
  | .mxsep => 0x42#8
  | .mxtime => 0x43#8
  | .mxdark => 0x44#8
  | .mxfmt _ _ => 0x45#8
  | .mxdata => 0x46#8
  | .mskapply _ => 0x50#8
  | .mskscore _ => 0x51#8
  | .penalty => 0x52#8
  | .msksel => 0x53#8
  | .encode _ => 0x60#8

/-- The command word of a command: its opcode, then its operands in the order A, B, an unused field 0 (R98). -/
def encode (i : Instr) : Word :=
  assemble (opcode i) (i.operands.getD 0 0#8) (i.operands.getD 1 0#8)

/-- The instruction the decoder reads from a word numbered as spec/opcode_table.json numbers it: bit 0 the least significant,
as the Host's 32-bit write to CMD numbers it (R90). Every command is exactly 32 bits (R97); bits above `nbits` are 0, and a
longer row is none of this hardware's. -/
def decodeTableWord (nbits w : Nat) : Option Instr :=
  if nbits ≤ 32 then (decode (BitVec.ofNat 32 (w % 2 ^ nbits))).toOption else none

end Sys2Proof
end

