-- ==== Sys2Proof/Config.lean ====
section
/-! DEFINITION. What is fixed for one run of the model: the OPEN parameters of R5 (R49: configuration, not state), and the
constants of the block. A parameter is an argument of the model; it stands in `State.cfg`, which no step changes (log 2). -/

namespace Sys2Proof

/-- OVERFLOW_POLICY (R5, R143, D16). -/
inductive OverflowPolicy where
  | fault
  | truncate
  deriving DecidableEq, Repr

/-- FMT_BIT_ORDER (R5, R178, D15). -/
inductive FmtBitOrder where
  | msbFirst
  | lsbFirst
  deriving DecidableEq, Repr

/-- The OPEN parameters of R5.
LATENCY is one finite count for each accepted command (R264): `latency[n]` is how many Host events still come before the
Engine step of the n-th accepted command; a command past the end of the list has count 0 (log 3). -/
structure Config where
  overflow : OverflowPolicy
  bitOrder : FmtBitOrder
  base     : Nat
  latency  : List Nat
  deriving DecidableEq, Repr

namespace Config

/-- The defaults of R5 for OVERFLOW_POLICY and FMT_BIT_ORDER; BASE and LATENCY have no default in the spec and take a value
that no statement rests on (DESIGN CHOICE, unsafe, log 2 and log 3). -/
def default : Config :=
  { overflow := .fault, bitOrder := .msbFirst, base := 0, latency := [] }

/-- The window's size in bytes (R60). -/
def windowBytes : Nat := 8192

/-- BASE is 8192-byte aligned (R5, R60, D31). -/
abbrev wf (c : Config) : Prop := c.base % windowBytes = 0

/-- The effective address of an access, BASE + off (R76). -/
def busAddress (c : Config) (off : Offset) : Nat := c.base + off.toNat

/-- The window offset that a byte address of the Host's address space names, none for an address outside the window (R60). -/
def offsetAt (c : Config) (addr : Nat) : Option Offset :=
  if c.base ≤ addr ∧ addr < c.base + windowBytes then some (BitVec.ofNat 13 (addr - c.base)) else none

/-- The latency count of the n-th accepted command (R264, log 3). -/
def latencyOf (c : Config) (n : Nat) : Nat := c.latency.getD n 0

end Config

/-- The side of the planes, MAXSIZE = SIZE(5) (R5). -/
def maxSize : Nat := 37

/-- The constant of register ID: ASCII "QR" and command-set version 1 (R22). -/
def idValue : Word := 0x51520001#32

end Sys2Proof
end

