-- ==== Sys2Proof/Machine/GfTables.lean ====
section
/-! DEFINITION. The contents of the two read-only tables EXP and LOG of GF(2^8) (R44, R111 to R113), as the spec prints them
(40_gf.md, the tables after R113). State holds them in the field `rom`; that they are the powers of the generator and its
inverse map is the obligation TablesIterateTheGenerator. -/

namespace Sys2Proof.Machine

/-- EXP[0..255] (R111, R113): EXP[i] is the i-th power of the generator 2, and EXP[255] = EXP[0]. -/
def expTable : List Byte :=
  [ [0x01#8, 0x02#8, 0x04#8, 0x08#8, 0x10#8, 0x20#8, 0x40#8, 0x80#8, 0x1D#8, 0x3A#8, 0x74#8, 0xE8#8, 0xCD#8, 0x87#8, 0x13#8, 0x26#8],
    [0x4C#8, 0x98#8, 0x2D#8, 0x5A#8, 0xB4#8, 0x75#8, 0xEA#8, 0xC9#8, 0x8F#8, 0x03#8, 0x06#8, 0x0C#8, 0x18#8, 0x30#8, 0x60#8, 0xC0#8],
    [0x9D#8, 0x27#8, 0x4E#8, 0x9C#8, 0x25#8, 0x4A#8, 0x94#8, 0x35#8, 0x6A#8, 0xD4#8, 0xB5#8, 0x77#8, 0xEE#8, 0xC1#8, 0x9F#8, 0x23#8],
    [0x46#8, 0x8C#8, 0x05#8, 0x0A#8, 0x14#8, 0x28#8, 0x50#8, 0xA0#8, 0x5D#8, 0xBA#8, 0x69#8, 0xD2#8, 0xB9#8, 0x6F#8, 0xDE#8, 0xA1#8],
    [0x5F#8, 0xBE#8, 0x61#8, 0xC2#8, 0x99#8, 0x2F#8, 0x5E#8, 0xBC#8, 0x65#8, 0xCA#8, 0x89#8, 0x0F#8, 0x1E#8, 0x3C#8, 0x78#8, 0xF0#8],
    [0xFD#8, 0xE7#8, 0xD3#8, 0xBB#8, 0x6B#8, 0xD6#8, 0xB1#8, 0x7F#8, 0xFE#8, 0xE1#8, 0xDF#8, 0xA3#8, 0x5B#8, 0xB6#8, 0x71#8, 0xE2#8],
    [0xD9#8, 0xAF#8, 0x43#8, 0x86#8, 0x11#8, 0x22#8, 0x44#8, 0x88#8, 0x0D#8, 0x1A#8, 0x34#8, 0x68#8, 0xD0#8, 0xBD#8, 0x67#8, 0xCE#8],
    [0x81#8, 0x1F#8, 0x3E#8, 0x7C#8, 0xF8#8, 0xED#8, 0xC7#8, 0x93#8, 0x3B#8, 0x76#8, 0xEC#8, 0xC5#8, 0x97#8, 0x33#8, 0x66#8, 0xCC#8],
    [0x85#8, 0x17#8, 0x2E#8, 0x5C#8, 0xB8#8, 0x6D#8, 0xDA#8, 0xA9#8, 0x4F#8, 0x9E#8, 0x21#8, 0x42#8, 0x84#8, 0x15#8, 0x2A#8, 0x54#8],
    [0xA8#8, 0x4D#8, 0x9A#8, 0x29#8, 0x52#8, 0xA4#8, 0x55#8, 0xAA#8, 0x49#8, 0x92#8, 0x39#8, 0x72#8, 0xE4#8, 0xD5#8, 0xB7#8, 0x73#8],
    [0xE6#8, 0xD1#8, 0xBF#8, 0x63#8, 0xC6#8, 0x91#8, 0x3F#8, 0x7E#8, 0xFC#8, 0xE5#8, 0xD7#8, 0xB3#8, 0x7B#8, 0xF6#8, 0xF1#8, 0xFF#8],
    [0xE3#8, 0xDB#8, 0xAB#8, 0x4B#8, 0x96#8, 0x31#8, 0x62#8, 0xC4#8, 0x95#8, 0x37#8, 0x6E#8, 0xDC#8, 0xA5#8, 0x57#8, 0xAE#8, 0x41#8],
    [0x82#8, 0x19#8, 0x32#8, 0x64#8, 0xC8#8, 0x8D#8, 0x07#8, 0x0E#8, 0x1C#8, 0x38#8, 0x70#8, 0xE0#8, 0xDD#8, 0xA7#8, 0x53#8, 0xA6#8],
    [0x51#8, 0xA2#8, 0x59#8, 0xB2#8, 0x79#8, 0xF2#8, 0xF9#8, 0xEF#8, 0xC3#8, 0x9B#8, 0x2B#8, 0x56#8, 0xAC#8, 0x45#8, 0x8A#8, 0x09#8],
    [0x12#8, 0x24#8, 0x48#8, 0x90#8, 0x3D#8, 0x7A#8, 0xF4#8, 0xF5#8, 0xF7#8, 0xF3#8, 0xFB#8, 0xEB#8, 0xCB#8, 0x8B#8, 0x0B#8, 0x16#8],
    [0x2C#8, 0x58#8, 0xB0#8, 0x7D#8, 0xFA#8, 0xE9#8, 0xCF#8, 0x83#8, 0x1B#8, 0x36#8, 0x6C#8, 0xD8#8, 0xAD#8, 0x47#8, 0x8E#8, 0x01#8] ].flatten

/-- LOG[0..255] (R112): LOG[EXP[i]] = i for i = 0..254, and LOG[0] = 0, which no rule reads (D13, log 15). -/
def logTable : List Byte :=
  [ [0#8, 0#8, 1#8, 25#8, 2#8, 50#8, 26#8, 198#8, 3#8, 223#8, 51#8, 238#8, 27#8, 104#8, 199#8, 75#8],
    [4#8, 100#8, 224#8, 14#8, 52#8, 141#8, 239#8, 129#8, 28#8, 193#8, 105#8, 248#8, 200#8, 8#8, 76#8, 113#8],
    [5#8, 138#8, 101#8, 47#8, 225#8, 36#8, 15#8, 33#8, 53#8, 147#8, 142#8, 218#8, 240#8, 18#8, 130#8, 69#8],
    [29#8, 181#8, 194#8, 125#8, 106#8, 39#8, 249#8, 185#8, 201#8, 154#8, 9#8, 120#8, 77#8, 228#8, 114#8, 166#8],
    [6#8, 191#8, 139#8, 98#8, 102#8, 221#8, 48#8, 253#8, 226#8, 152#8, 37#8, 179#8, 16#8, 145#8, 34#8, 136#8],
    [54#8, 208#8, 148#8, 206#8, 143#8, 150#8, 219#8, 189#8, 241#8, 210#8, 19#8, 92#8, 131#8, 56#8, 70#8, 64#8],
    [30#8, 66#8, 182#8, 163#8, 195#8, 72#8, 126#8, 110#8, 107#8, 58#8, 40#8, 84#8, 250#8, 133#8, 186#8, 61#8],
    [202#8, 94#8, 155#8, 159#8, 10#8, 21#8, 121#8, 43#8, 78#8, 212#8, 229#8, 172#8, 115#8, 243#8, 167#8, 87#8],
    [7#8, 112#8, 192#8, 247#8, 140#8, 128#8, 99#8, 13#8, 103#8, 74#8, 222#8, 237#8, 49#8, 197#8, 254#8, 24#8],
    [227#8, 165#8, 153#8, 119#8, 38#8, 184#8, 180#8, 124#8, 17#8, 68#8, 146#8, 217#8, 35#8, 32#8, 137#8, 46#8],
    [55#8, 63#8, 209#8, 91#8, 149#8, 188#8, 207#8, 205#8, 144#8, 135#8, 151#8, 178#8, 220#8, 252#8, 190#8, 97#8],
    [242#8, 86#8, 211#8, 171#8, 20#8, 42#8, 93#8, 158#8, 132#8, 60#8, 57#8, 83#8, 71#8, 109#8, 65#8, 162#8],
    [31#8, 45#8, 67#8, 216#8, 183#8, 123#8, 164#8, 118#8, 196#8, 23#8, 73#8, 236#8, 127#8, 12#8, 111#8, 246#8],
    [108#8, 161#8, 59#8, 82#8, 41#8, 157#8, 85#8, 170#8, 251#8, 96#8, 134#8, 177#8, 187#8, 204#8, 62#8, 90#8],
    [203#8, 89#8, 95#8, 176#8, 156#8, 169#8, 160#8, 81#8, 11#8, 245#8, 22#8, 235#8, 122#8, 117#8, 44#8, 215#8],
    [79#8, 174#8, 213#8, 233#8, 230#8, 231#8, 173#8, 232#8, 116#8, 214#8, 244#8, 234#8, 168#8, 80#8, 88#8, 175#8] ].flatten

end Sys2Proof.Machine
end

