-- ==== Sys2Proof/Machine/State.lean ====
section
/-! DEFINITION. The state of the block as plain data: every register, buffer, plane and table that 10_state.md names, the
parameters of R5, and the model's own record of the Host (log 4). INVENTORY.md lists each with its rule. -/

namespace Sys2Proof.Machine

/-- The model faults of R238: a condition whose behaviour the hardware does not define; the model stops by name. Every one is
SAFE: the model stops where a device may do anything. -/
inductive Fault where
  /-- Raised by a Host access to an unmapped offset, of a wrong width or alignment, a write to a read-only register or to GEN,
  a read of CMD, or a MAT access outside the current matrix (R61 to R64, R66, R238). Safe. -/
  | badAccess
  /-- Raised by a Host access while BUSY = 1 that is not a read of STATUS or ID (R67, R238). Safe. -/
  | busyAccess
  /-- Raised by a Host read or a command read of a byte or cell whose written flag is false (R46, R238). Safe. -/
  | readUnwritten
  deriving DecidableEq, Repr

/-- Why the model gives an instruction no meaning. -/
inductive Refusal where
  /-- Raised by `exec` for an instruction that has no meaning in this model yet; no arm of this model raises it. Safe. -/
  | notModelled (mnemonic : String)
  deriving DecidableEq, Repr

/-- The reported errors of R231. -/
inductive ErrCode where
  | domain
  | capacity
  | illcmd
  | illopnd
  | noinit
  deriving DecidableEq, Repr

/-- The width in bytes of a Host access. R76 gives the Host 1 and 4; 2 is named by R62 to R64 as a bad access. -/
inductive Width where
  | byte
  | half
  | word
  deriving DecidableEq, Repr

/-- A Host access at a window offset, `MemRead(off, n)` or `MemWrite(off, n, v)` (R76). A write of one byte uses v[7:0]
(R63). -/
inductive Access where
  | read (off : Offset) (n : Width)
  | write (off : Offset) (n : Width) (v : Word)
  deriving DecidableEq, Repr

/-- What comes to the block from outside, in order (R6, R99, R262; log 4, log 14). -/
inductive HostEvent where
  /-- One access of the register window. -/
  | access (a : Access)
  /-- The `wait` loop of R99: STATUS is read until BUSY reads 0. -/
  | wait
  /-- The platform asserts reset (R260, R262). -/
  | reset
  deriving DecidableEq, Repr

/-- CTRL's two enables (R23). -/
structure Ctrl where
  ieDone : Bool
  ieErr  : Bool
  deriving DecidableEq, Repr

/-- The stored flags of STATUS (R24). BUSY is the valid condition of PEND (R45) and is stored there (log 5). -/
structure Status where
  done    : Bool
  err     : Bool
  drop    : Bool
  errCode : BitVec 4
  deriving DecidableEq, Repr

/-- The two read-only GF tables (R44). -/
structure GfRom where
  exp : List Byte
  log : List Byte
  deriving DecidableEq, Repr

/-- The contents the tables hold from reset on (R261). -/
def GfRom.fixed : GfRom := { exp := expTable, log := logTable }

/-- The bytes of PAYLOAD, CW and GEN by window offset. A byte that is not listed is unwritten (R46). -/
abbrev Memory := List Host.Cell

/-- The canonical form: addresses strictly rising. An unlisted address has no value, so no entry can equal it. -/
abbrev Memory.wf (m : Memory) : Prop := m.Pairwise (fun p q => p.1 < q.1)

/-- A plane of module cells, a list of rows, each a list of cells; `none` is a cell whose written flag is false (R46). -/
abbrev Plane := List (List (Option Bool))

/-- The plane has exactly 37 rows of 37 cells (R41 to R43). -/
abbrev Plane.wf (p : Plane) : Prop := p.length = maxSize ∧ ∀ row ∈ p, row.length = maxSize

/-- A plane no cell of which is written (R260). -/
def Plane.unwritten : Plane := List.replicate maxSize (List.replicate maxSize none)

/-- The state of the block. -/
structure State where
  /-- The parameters of R5; no step changes them (R49). -/
  cfg     : Config
  /-- CTRL (R23) -/
  ctrl    : Ctrl
  /-- STATUS but for BUSY (R24) -/
  status  : Status
  /-- PEND, none when no command is pending; STATUS.BUSY is `pend.isSome` (R45) -/
  pend    : Option Word
  /-- RESULT (R26) -/
  result  : Word
  /-- ERRINFO (R27) -/
  errinfo : Word
  /-- LEN (R28) -/
  len     : Word
  /-- VER (R29) -/
  ver     : Word
  /-- CAP bits [15:0]: ECW and DCW (R30) -/
  cap     : BitVec 16
  /-- CWLEN (R31) -/
  cwlen   : Word
  /-- SIZE bits [5:0] (R33) -/
  size    : BitVec 6
  /-- FMT bits [14:0] (R32) -/
  fmt     : BitVec 15
  /-- MASKID bits [2:0] (R34) -/
  maskid  : BitVec 3
  /-- BITCNT bits [11:0] (R35) -/
  bitcnt  : BitVec 12
  /-- PENTAB[0..7] bits [15:0] (R36) -/
  pentab  : Vector (BitVec 16) 8
  /-- PAYLOAD (R38), CW (R39) and GEN (R40) -/
  mem     : Memory
  /-- The Module Matrix plane M (R41) -/
  planeM  : Plane
  /-- The Reserved Mask plane R (R42) -/
  planeR  : Plane
  /-- The scratch plane S (R43; log 7) -/
  planeS  : Plane
  /-- EXP and LOG (R44) -/
  rom     : GfRom
  /-- MODEL: the Host's coming events (log 4) -/
  hostQ   : List HostEvent
  /-- MODEL: the values the Host's reads returned, newest first (log 4) -/
  readLog : List Word
  /-- MODEL: Host events that still come before the Engine step (log 3) -/
  left    : Nat
  /-- MODEL: commands accepted so far (log 3) -/
  issued  : Nat
  deriving DecidableEq, Repr

/-- The machine right after reset under the parameters `c` (R260, R261). -/
def State.resetWith (c : Config) : State :=
  { cfg := c
    ctrl := { ieDone := false, ieErr := false }
    status := { done := false, err := false, drop := false, errCode := 0#4 }
    pend := none
    result := 0#32
    errinfo := 0#32
    len := 0#32
    ver := 0#32
    cap := 0#16
    cwlen := 0#32
    size := 0#6
    fmt := 0#15
    maskid := 0#3
    bitcnt := 0#12
    pentab := Vector.replicate 8 0#16
    mem := []
    planeM := Plane.unwritten
    planeR := Plane.unwritten
    planeS := Plane.unwritten
    rom := GfRom.fixed
    hostQ := []
    readLog := []
    left := 0
    issued := 0 }

/-- The machine right after reset, under the default parameters (R5, R260). -/
def State.reset : State := State.resetWith Config.default

end Sys2Proof.Machine
end

