-- ==== Sys2Proof/Machine/Flags.lean ====
section
/-! DEFINITION. The flags of the block: STATUS (R24, R48), the error codes (R231) and the IRQ output (R47, R236). No command sets
a flag as a side effect of its arithmetic (R48). -/

namespace Sys2Proof.Machine

/-- The codes of STATUS.ERRCODE (R231). Codes 6 to 15 are never reported. -/
def ErrCode.code : ErrCode → BitVec 4
  | .domain => 1#4
  | .capacity => 2#4
  | .illcmd => 3#4
  | .illopnd => 4#4
  | .noinit => 5#4

/-- STATUS.BUSY: a command is pending (R24, R45). -/
def State.busy (s : State) : Bool := s.pend.isSome

/-- One flag at bit `n` of a 32-bit register. -/
def flagBit (b : Bool) (n : Nat) : Word := if b then BitVec.ofNat 32 (2 ^ n) else 0#32

/-- The 32-bit value of STATUS: BUSY 0, DONE 1, ERR 2, DROP 3, ERRCODE 11:8, the rest reads 0 (R24). -/
def State.statusWord (s : State) : Word :=
  flagBit s.busy 0 ||| flagBit s.status.done 1 ||| flagBit s.status.err 2 ||| flagBit s.status.drop 3
    ||| (s.status.errCode.setWidth 32 <<< 8)

/-- A Host write of STATUS: each of DONE, ERR, DROP whose bit in the written value is 1 is cleared, nothing else changes
(R24, R235). It is the only return to service but reset. -/
def Status.writeOneToClear (t : Status) (v : Word) : Status :=
  { t with
    done := t.done && !v.getLsbD 1
    err := t.err && !v.getLsbD 2
    drop := t.drop && !v.getLsbD 3 }

/-- STATUS after a completion without error (R232): DONE is set; ERR, DROP and ERRCODE stay. -/
def Status.setDone (t : Status) : Status := { t with done := true }

/-- STATUS after a reported error (R232): ERR and DONE are set and ERRCODE holds the code. -/
def Status.setError (t : Status) (c : ErrCode) : Status :=
  { t with done := true, err := true, errCode := c.code }

/-- STATUS after a CMD write while ERR = 1 (R25, R234). -/
def Status.setDrop (t : Status) : Status := { t with drop := true }

/-- The 32-bit value of CTRL; bits [31:2] read 0 (R23). -/
def Ctrl.toWord (c : Ctrl) : Word := flagBit c.ieDone 0 ||| flagBit c.ieErr 1

/-- A Host write of CTRL; bits [31:2] of the value are ignored (R23). -/
def Ctrl.ofWord (v : Word) : Ctrl := { ieDone := v.getLsbD 0, ieErr := v.getLsbD 1 }

/-- The IRQ output, a level with no state of its own (R47, R236). -/
def State.irq (s : State) : Bool :=
  (s.status.done && s.ctrl.ieDone) || (s.status.err && s.ctrl.ieErr)

end Sys2Proof.Machine
end

