-- ==== Sys2Proof/Machine/Ops.lean ====
section
/-! DEFINITION. The named operations over the buffers, the planes and the registers; the completion of a command and, as one
shared operation, the report of an error (R232), with the Host's return to service beside it (R235). -/

namespace Sys2Proof.Machine

/-! ### Buffer bytes (R38 to R40, R46) -/

/-- Window offset of PAYLOAD[0] (R61). -/
def payloadBase : Nat := 0x100

/-- Window offset of CW[0] (R61). -/
def cwBase : Nat := 0x200

/-- Window offset of GEN[0] (R61). -/
def genBase : Nat := 0x300

/-- Bytes in PAYLOAD and in CW (R5). -/
def bufferBytes : Nat := 256

/-- Bytes in GEN: GEN_MAXDEG + 1 (R5, R40). -/
def genBytes : Nat := 33

/-- The byte at window offset `a`, none when it is unwritten (R46). -/
def Memory.read (m : Memory) (a : Nat) : Option Byte :=
  match m with
  | [] => none
  | (k, b) :: rest => if k = a then some b else Memory.read rest a

/-- The byte at window offset `a` becomes `b` and is written (R46); the list stays in rising order. -/
def Memory.write (m : Memory) (a : Nat) (b : Byte) : Memory :=
  match m with
  | [] => [(a, b)]
  | (k, x) :: rest =>
    if a < k then (a, b) :: (k, x) :: rest
    else if k = a then (a, b) :: rest
    else (k, x) :: Memory.write rest a b

/-- The bytes `bs` at window offsets `a`, `a + 1`, and so on. -/
def Memory.writeBytes (m : Memory) (a : Nat) : List Byte → Memory
  | [] => m
  | b :: bs => Memory.writeBytes (m.write a b) (a + 1) bs

/-- Every element, if every one is present. -/
def allPresent {α : Type} : List (Option α) → Option (List α)
  | [] => some []
  | none :: _ => none
  | some x :: xs => (allPresent xs).map (x :: ·)

/-- The `n` bytes at window offsets `a`, `a + 1`, and so on, none when one of them is unwritten (R46). -/
def Memory.readBytes (m : Memory) (a n : Nat) : Option (List Byte) :=
  allPresent ((List.range n).map fun k => m.read (a + k))

/-- PAYLOAD[k] (R38) -/
def State.payload (s : State) (k : Nat) : Option Byte := s.mem.read (payloadBase + k)

/-- CW[k] (R39) -/
def State.cw (s : State) (k : Nat) : Option Byte := s.mem.read (cwBase + k)

/-- GEN[k] (R40) -/
def State.gen (s : State) (k : Nat) : Option Byte := s.mem.read (genBase + k)

/-! ### Bit order (R7, R9) -/

/-- The `n` low bits of a number, most significant first (R9, R140, R185). -/
def bitsMsbFirst (n x : Nat) : List Bool := (List.range n).map fun k => x.testBit (n - 1 - k)

/-! ### Planes (R41 to R43, R46) -/

/-- The element at an index, none past the end. -/
def cellAt : List (Option Bool) → Nat → Option Bool
  | [], _ => none
  | x :: _, 0 => x
  | _ :: xs, n + 1 => cellAt xs n

/-- The row at an index, the empty row past the end. -/
def rowAt : Plane → Nat → List (Option Bool)
  | [], _ => []
  | x :: _, 0 => x
  | _ :: xs, n + 1 => rowAt xs n

/-- The cell in row r and column c, none when it is unwritten or is no cell of the plane (R10, R46). -/
def Plane.get (p : Plane) (r c : Nat) : Option Bool := cellAt (rowAt p r) c

/-- The row with the element at an index set. -/
def setCellAt : List (Option Bool) → Nat → Bool → List (Option Bool)
  | [], 0, v => [some v]
  | [], n + 1, v => none :: setCellAt [] n v
  | _ :: xs, 0, v => some v :: xs
  | x :: xs, n + 1, v => x :: setCellAt xs n v

/-- The cell in row r and column c becomes `v` and is written (R46). No rule writes a cell outside the 37 by 37 plane from a
state whose SIZE is legal (log 12). -/
def Plane.set (p : Plane) (r c : Nat) (v : Bool) : Plane :=
  match p, r with
  | [], 0 => [setCellAt [] c v]
  | [], n + 1 => [] :: Plane.set [] n c v
  | row :: rows, 0 => setCellAt row c v :: rows
  | row :: rows, n + 1 => row :: Plane.set rows n c v

/-- A write of one cell: row, column, value. -/
structure CellWrite where
  row : Nat
  col : Nat
  val : Bool
  deriving DecidableEq, Repr

/-- The writes of a list, in its order. -/
def Plane.setAll (p : Plane) (ws : List CellWrite) : Plane :=
  ws.foldl (fun q w => q.set w.row w.col w.val) p

/-- The 37 by 37 plane whose cell (r, c) is `f r c`. -/
def Plane.build (f : Nat → Nat → Option Bool) : Plane :=
  (List.range maxSize).map fun r => (List.range maxSize).map fun c => f r c

/-- The 37 by 37 plane with every cell written to `v` (R171). -/
def Plane.fill (v : Bool) : Plane := List.replicate maxSize (List.replicate maxSize (some v))

/-! ### What a command's rule answers, and its completion (R232) -/

/-- Why a command's rule ends without its writes: `raise Err(CODE)` or `fault NAME` (R8). -/
inductive Stop where
  | err (c : ErrCode)
  | fault (f : Fault)
  deriving DecidableEq, Repr

/-- What a command's rule answers: the state with its writes done, or a stop. -/
abbrev Result := Except Stop State

/-- The command is finished: DONE is set and BUSY cleared (R232). -/
def State.complete (s : State) : State := { s with pend := none, status := s.status.setDone }

/-- A REPORTED ERROR of the command word `w` (R230, R232): ERR, ERRCODE, ERRINFO and DONE are set, BUSY is cleared, and nothing
else changes. There is no vector, no saved address and no handler (R232). -/
def State.reportError (s : State) (c : ErrCode) (w : Word) : State :=
  { s with pend := none, status := s.status.setError c, errinfo := w }

/-- The RETURN TO SERVICE: the Host's write of STATUS (R235). ERRCODE and ERRINFO keep describing the last error. -/
def State.clearStatus (s : State) (v : Word) : State :=
  { s with status := s.status.writeOneToClear v }

/-- The end of the Engine step for a command legal in form (R232). The word kept in ERRINFO is the command's own word; from a
pending word that decodes to the command it is that word (log 6). -/
def finish (i : Instr) (s : State) : Result → Host.Outcome State Fault Refusal
  | .ok t => .next t.complete
  | .error (.err c) => .next (s.reportError c (encode i))
  | .error (.fault f) => .fault f

/-- Goes on with the bytes or cells a command reads, or stops with ReadUnwritten (R46, R233). -/
def whenWritten {α : Type} (x : Option α) (k : α → Result) : Result :=
  match x with
  | some v => k v
  | none => .error (.fault .readUnwritten)

/-! ### Registers (R22 to R36) -/

/-- The registers of the window (R22 to R36). -/
inductive Reg where
  | id | ctrl | status | cmd | result | errinfo | len | ver | cap | cwlen | size | fmt | maskid | bitcnt
  | pentab (m : Nat)
  deriving DecidableEq, Repr

/-- PENTAB[m] (R36) -/
def State.penaltyOf (s : State) (m : Nat) : BitVec 16 := s.pentab.toList.getD m 0#16

/-- The 32-bit value a Host read of a register returns; CMD is write-only (R22 to R37, R66). -/
def State.readReg (s : State) : Reg → Option Word
  | .id => some idValue
  | .ctrl => some s.ctrl.toWord
  | .status => some s.statusWord
  | .cmd => none
  | .result => some s.result
  | .errinfo => some s.errinfo
  | .len => some s.len
  | .ver => some s.ver
  | .cap => some (s.cap.setWidth 32)
  | .cwlen => some s.cwlen
  | .size => some (s.size.setWidth 32)
  | .fmt => some (s.fmt.setWidth 32)
  | .maskid => some (s.maskid.setWidth 32)
  | .bitcnt => some (s.bitcnt.setWidth 32)
  | .pentab m => some ((s.penaltyOf m).setWidth 32)

/-- A Host write of CMD while no command is pending (R25): accepted when ERR = 0, else dropped with DROP set (R234). -/
def State.writeCmd (s : State) (w : Word) : State :=
  if s.status.err then { s with status := s.status.setDrop }
  else { s with pend := some w, left := s.cfg.latencyOf s.issued, issued := s.issued + 1 }

/-- A Host write of a register while no command is pending: CTRL, STATUS, CMD, LEN, VER and CWLEN are writable (R23 to R25,
R28, R29, R31); a write of a read-only register is none (R66). -/
def State.writeReg (s : State) (v : Word) : Reg → Option State
  | .ctrl => some { s with ctrl := Ctrl.ofWord v }
  | .status => some (s.clearStatus v)
  | .cmd => some (s.writeCmd v)
  | .len => some { s with len := v }
  | .ver => some { s with ver := v }
  | .cwlen => some { s with cwlen := v }
  | .id | .result | .errinfo | .cap | .size | .fmt | .maskid | .bitcnt | .pentab _ => none

end Sys2Proof.Machine
end

