-- ==== Sys2Proof/Machine/Operands.lean ====
section
/-! DEFINITION. The operand forms of the commands (R91, R92) and their checks, in the order of R233: an immediate, then a
register operand out of range reports ILLOPND; then NOINIT; then CAPACITY. Field A and field B reach a command as 8-bit
immediates; LEN, VER and CWLEN are read when the command executes. -/

namespace Sys2Proof.Machine

/-- A level operand, 0..3 (R92). -/
def levelInRange (a : Byte) : Bool := decide (a.toNat ≤ 3)

/-- A mask operand, 0..7 (R92). -/
def maskInRange (a : Byte) : Bool := decide (a.toNat ≤ 7)

/-- A version, 1..5, as an immediate or in VER (R92). -/
def versionInRange (v : Nat) : Bool := decide (1 ≤ v ∧ v ≤ 5)

/-- The degree n of RSGEN, 0..32 (R92). -/
def degreeInRange (n : Byte) : Bool := decide (n.toNat ≤ 32)

/-- The pair d, n of RSENC: n ≤ 32 and d + n ≤ 256 (R92). -/
def streamInRange (d n : Byte) : Bool := decide (n.toNat ≤ 32 ∧ d.toNat + n.toNat ≤ 256)

/-- The register operand CWLEN of MXDATA, 0..256 (R186). -/
def cwlenInRange (n : Nat) : Bool := decide (n ≤ 256)

/-- ILLOPND unless the operand is in range (R95, R233). -/
def needOperand (ok : Bool) (k : Result) : Result :=
  if ok then k else .error (.err .illopnd)

/-- NOINIT while SIZE = 0, else goes on with the side of the current matrix (R33, R233). -/
def needMatrix (s : State) (k : Nat → Result) : Result :=
  if s.size = 0#6 then .error (.err .noinit) else k s.size.toNat

/-- CAPACITY when the payload length is over 255, then when the packed stream of `len + 2` bytes is longer than the capacity
`d` under OVERFLOW_POLICY = FAULT (R143, R233). -/
def needCapacity (p : OverflowPolicy) (len d : Nat) (k : Result) : Result :=
  if 255 < len then .error (.err .capacity)
  else if d < len + 2 ∧ p = .fault then .error (.err .capacity)
  else k

end Sys2Proof.Machine
end

