-- ==== Sys2Proof/Machine/Capacity.lean ====
section
/-! DEFINITION. The Version Capacity Table: VERFOR and CAPOF (R130 to R134). -/

namespace Sys2Proof.Machine

/-- capacity_of(v): the data-codeword count d and the error-correction-codeword count n of a version (R130). A value that is no
version has no entry; every command checks the range first. -/
def capacityOf : Nat → Nat × Nat
  | 1 => (19, 7)
  | 2 => (34, 10)
  | 3 => (55, 15)
  | 4 => (80, 20)
  | 5 => (108, 26)
  | _ => (0, 0)

/-- version_for(L) (R131). -/
def versionFor (len : Nat) : Nat :=
  if len ≤ 17 then 1
  else if len ≤ 32 then 2
  else if len ≤ 53 then 3
  else if len ≤ 78 then 4
  else 5

/-- SIZE(v) = 4 v + 17 (R132). -/
def sideOf (v : Nat) : Nat := 4 * v + 17

/-- The value of CAP for a version, n << 8 | d (R30, R134). -/
def capWord (v : Nat) : BitVec 16 :=
  BitVec.ofNat 16 ((capacityOf v).2 <<< 8 ||| (capacityOf v).1)

/-- The effect of VERFOR (R133). -/
def runVerfor (s : State) : Result :=
  .ok { s with ver := BitVec.ofNat 32 (versionFor s.len.toNat) }

/-- VERFOR (R133) -/
def execVerfor (s : State) : Host.Outcome State Fault Refusal :=
  finish .verfor s (runVerfor s)

/-- The effect of CAPOF (R134). -/
def runCapof (a : Byte) (s : State) : Result :=
  needOperand (versionInRange a.toNat) (.ok { s with cap := capWord a.toNat })

/-- CAPOF (R134) -/
def execCapof (a : Byte) (s : State) : Host.Outcome State Fault Refusal :=
  finish (.capof a) s (runCapof a s)

end Sys2Proof.Machine
end

