-- ==== Sys2Proof/Machine/DataEncoder.lean ====
section
/-! DEFINITION. The Data Encoder: DENC (R140 to R145). -/

namespace Sys2Proof.Machine

/-- The flat bit sequence of a payload: the byte-mode indicator 0100, the 8-bit count, the payload bytes, the terminator 0000
(R140). -/
def streamBits (p : List Byte) : List Bool :=
  bitsMsbFirst 4 4 ++ bitsMsbFirst 8 p.length ++ p.flatMap (fun b => bitsMsbFirst 8 b.toNat) ++ bitsMsbFirst 4 0

/-- The number whose bits, most significant first, are the first `n` of a list; a missing bit is 0. -/
def numberOfBits : Nat → List Bool → Nat
  | 0, _ => 0
  | n + 1, [] => numberOfBits n []
  | n + 1, b :: bs => (if b then 2 ^ n else 0) + numberOfBits n bs

/-- `n` bytes of a bit sequence, each taking the next 8 bits most significant first (R141). -/
def packBytes : Nat → List Bool → List Byte
  | 0, _ => []
  | n + 1, bits => BitVec.ofNat 8 (numberOfBits 8 bits) :: packBytes n (bits.drop 8)

/-- A bit sequence padded with zero bits to a multiple of 8 and packed (R141). -/
def packMsbFirst (bits : List Bool) : List Byte := packBytes ((bits.length + 7) / 8) bits

/-- The pad byte number k: 0xEC, 0x11, alternating, 0xEC first (R142). -/
def padByte (k : Nat) : Byte := if k % 2 = 0 then 0xEC#8 else 0x11#8

/-- The data codewords of a payload for a capacity of d bytes (R140 to R143, R145): the packed stream, pad bytes up to d, and no
more than d bytes (that only shortens under OVERFLOW_POLICY = TRUNCATE). -/
def dataCodewords (d : Nat) (p : List Byte) : List Byte :=
  let packed := packMsbFirst (streamBits p)
  (packed ++ (List.range (d - packed.length)).map padByte).take d

/-- The writes of DENC: CW[0..d−1] and CWLEN (R145). -/
def State.putData (s : State) (d : Nat) (p : List Byte) : State :=
  { s with
    mem := s.mem.writeBytes cwBase (dataCodewords d p)
    cwlen := BitVec.ofNat 32 d }

/-- PAYLOAD[0..LEN−1] (R28, R38), none when one of them is unwritten. -/
def State.payloadBytes (s : State) : Option (List Byte) := s.mem.readBytes payloadBase s.len.toNat

/-- The effect of DENC (R145). -/
def runDenc (s : State) : Result :=
  needOperand (versionInRange s.ver.toNat)
    (needCapacity s.cfg.overflow s.len.toNat (capacityOf s.ver.toNat).1
      (whenWritten s.payloadBytes fun p =>
        .ok (s.putData (capacityOf s.ver.toNat).1 p)))

/-- DENC (R145) -/
def execDenc (s : State) : Host.Outcome State Fault Refusal :=
  finish .denc s (runDenc s)

end Sys2Proof.Machine
end

