-- ==== Sys2Proof/Machine/Matrix.lean ====
section
/-! DEFINITION. The Matrix Builder: MXINIT, MXFIND, MXSEP, MXTIME, MXDARK, FMTBITS, MXFMT and MXDATA (R170 to R188). "side" is
the side SIZE of the current matrix. No alignment pattern and no version information is placed (R188). -/

namespace Sys2Proof.Machine

/-! ### Allocation -/

/-- The writes of MXINIT: SIZE, and every cell of M and R light and unreserved (R171). -/
def State.initMatrix (s : State) (v : Nat) : State :=
  { s with
    size := BitVec.ofNat 6 (sideOf v)
    planeM := Plane.fill false
    planeR := Plane.fill false }

/-- The effect of MXINIT (R171). -/
def runMxinit (a : Byte) (s : State) : Result :=
  needOperand (versionInRange a.toNat) (.ok (s.initMatrix a.toNat))

/-- MXINIT (R171) -/
def execMxinit (a : Byte) (s : State) : Host.Outcome State Fault Refusal :=
  finish (.mxinit a) s (runMxinit a s)

/-! ### Finder patterns and separators -/

/-- The top-left cells of the three finder patterns (R172). -/
def finderOrigins (side : Nat) : List (Nat × Nat) := [(0, 0), (0, side - 7), (side - 7, 0)]

/-- A cell of a finder's 9 by 9 box, with the offsets dr and dc of R173 as `dr1 = dr + 1` and `dc1 = dc + 1`, so that they run
over 0..8 in place of −1..7. -/
structure BoxCell where
  dr1 : Nat
  dc1 : Nat
  row : Nat
  col : Nat
  deriving DecidableEq, Repr

/-- The cells of the 9 by 9 box around a finder's 7 by 7 that lie inside the matrix (R173). -/
def boxCells (side : Nat) (origin : Nat × Nat) : List BoxCell :=
  (List.range 9).flatMap fun dr1 =>
    (List.range 9).filterMap fun dc1 =>
      let r1 := origin.1 + dr1
      let c1 := origin.2 + dc1
      if 1 ≤ r1 ∧ r1 ≤ side ∧ 1 ≤ c1 ∧ c1 ≤ side then
        some { dr1 := dr1, dc1 := dc1, row := r1 - 1, col := c1 - 1 }
      else none

/-- The cell lies in the 1-module margin: dr or dc is −1 or 7 (R173, R174). -/
def BoxCell.margin (b : BoxCell) : Bool := b.dr1 == 0 || b.dr1 == 8 || b.dc1 == 0 || b.dc1 == 8

/-- The distance of two numbers. -/
def absDiff (a b : Nat) : Nat := (a - b) + (b - a)

/-- finder_value(dr, dc): rings 0, 1 and 3 around the centre are dark, ring 2 is light (R172). -/
def finderValue (dr dc : Nat) : Bool := max (absDiff dr 3) (absDiff dc 3) != 2

/-- The in-bounds box cells of the three finders, in the order of R173. -/
def allBoxCells (side : Nat) : List BoxCell := (finderOrigins side).flatMap (boxCells side)

/-- Writes of one value to the given box cells. -/
def reserveBox (cells : List BoxCell) (v : Bool) : List CellWrite :=
  cells.map fun b => { row := b.row, col := b.col, val := v }

/-- The module writes of MXFIND: the 7 by 7 patterns, the margins left as they are (R173). -/
def finderWrites (side : Nat) : List CellWrite :=
  ((allBoxCells side).filter fun b => !b.margin).map fun b =>
    { row := b.row, col := b.col, val := finderValue (b.dr1 - 1) (b.dc1 - 1) }

/-- The writes of MXFIND (R173). -/
def State.placeFinders (s : State) : State :=
  { s with
    planeM := s.planeM.setAll (finderWrites s.size.toNat)
    planeR := s.planeR.setAll (reserveBox (allBoxCells s.size.toNat) true) }

/-- The effect of MXFIND (R173). -/
def runMxfind (s : State) : Result := needMatrix s fun _ => .ok s.placeFinders

/-- MXFIND (R173) -/
def execMxfind (s : State) : Host.Outcome State Fault Refusal :=
  finish .mxfind s (runMxfind s)

/-- The separator cells: the in-bounds margin cells of the three finders (R174). -/
def separatorCells (side : Nat) : List BoxCell := (allBoxCells side).filter BoxCell.margin

/-- The writes of MXSEP (R174). -/
def State.placeSeparators (s : State) : State :=
  { s with
    planeM := s.planeM.setAll (reserveBox (separatorCells s.size.toNat) false)
    planeR := s.planeR.setAll (reserveBox (separatorCells s.size.toNat) true) }

/-- The effect of MXSEP (R174). -/
def runMxsep (s : State) : Result := needMatrix s fun _ => .ok s.placeSeparators

/-- MXSEP (R174) -/
def execMxsep (s : State) : Host.Outcome State Fault Refusal :=
  finish .mxsep s (runMxsep s)

/-! ### Timing patterns and dark module -/

/-- The indices 8..side − 9 between the finders and separators (R175). -/
def timingIndices (side : Nat) : List Nat := (List.range side).filter fun i => 8 ≤ i && i + 9 ≤ side

/-- The timing cells with the value "index is even": for each index the cell on row 6, then the cell on column 6 (R175). -/
def timingWrites (side : Nat) : List CellWrite :=
  (timingIndices side).flatMap fun i =>
    [{ row := 6, col := i, val := i % 2 == 0 }, { row := i, col := 6, val := i % 2 == 0 }]

/-- The same cells, each written 1: what a placement that reserves a cell does to R (R170). -/
def reserveAll (ws : List CellWrite) : List CellWrite :=
  ws.map fun w => { w with val := true }

/-- The writes of MXTIME (R175). -/
def State.placeTiming (s : State) : State :=
  { s with
    planeM := s.planeM.setAll (timingWrites s.size.toNat)
    planeR := s.planeR.setAll (reserveAll (timingWrites s.size.toNat)) }

/-- The effect of MXTIME (R175). -/
def runMxtime (s : State) : Result := needMatrix s fun _ => .ok s.placeTiming

/-- MXTIME (R175) -/
def execMxtime (s : State) : Host.Outcome State Fault Refusal :=
  finish .mxtime s (runMxtime s)

/-- The writes of MXDARK: the cell (side − 8, 8) dark and reserved (R176). -/
def State.placeDark (s : State) : State :=
  { s with
    planeM := s.planeM.set (s.size.toNat - 8) 8 true
    planeR := s.planeR.set (s.size.toNat - 8) 8 true }

/-- The effect of MXDARK (R176). -/
def runMxdark (s : State) : Result := needMatrix s fun _ => .ok s.placeDark

/-- MXDARK (R176) -/
def execMxdark (s : State) : Host.Outcome State Fault Refusal :=
  finish .mxdark s (runMxdark s)

/-! ### Format information -/

/-- One round of the reduction of R177: bit k of r is cleared by FORMAT_POLY 0x537 shifted to it. -/
def bchStep (r : BitVec 15) (k : Nat) : BitVec 15 :=
  if r.getLsbD k then r ^^^ (0x537#15 <<< (k - 10)) else r

/-- fmt_word(level, mask) (R177): level 0..3, mask 0..7. -/
def fmtWord (level mask : Nat) : BitVec 15 :=
  let dd : BitVec 15 := BitVec.ofNat 15 (level <<< 3 ||| mask)
  ((dd <<< 10) ||| [14, 13, 12, 11, 10].foldl bchStep (dd <<< 10)) ^^^ 0x5412#15

/-- fbit(F, i) under a bit order (R178). -/
def fmtBit (o : FmtBitOrder) (f : BitVec 15) (i : Nat) : Bool :=
  match o with
  | .msbFirst => f.getLsbD (14 - i)
  | .lsbFirst => f.getLsbD i

/-- P1(i): the cell of bit i in the first copy (R179). -/
def fmtCell1 (i : Nat) : Nat × Nat :=
  if i ≤ 5 then (8, i)
  else if i ≤ 7 then (8, i + 1)
  else if i = 8 then (7, 8)
  else (14 - i, 8)

/-- P2(i): the cell of bit i in the second copy, as the source writes the coordinates (R180, C2). -/
def fmtCell2 (side i : Nat) : Nat × Nat :=
  if i ≤ 7 then (side - 1 - i, 8) else (8, side + i - 15)

/-- The 30 writes of a format word: the first copy, then the second (R181). -/
def fmtWrites (o : FmtBitOrder) (side : Nat) (f : BitVec 15) : List CellWrite :=
  ((List.range 15).map fun i => { row := (fmtCell1 i).1, col := (fmtCell1 i).2, val := fmtBit o f i }) ++
  ((List.range 15).map fun i => { row := (fmtCell2 side i).1, col := (fmtCell2 side i).2, val := fmtBit o f i })

/-- The writes of MXFMT (R181). -/
def State.placeFormat (s : State) (level mask : Nat) : State :=
  { s with
    planeM := s.planeM.setAll (fmtWrites s.cfg.bitOrder s.size.toNat (fmtWord level mask))
    planeR := s.planeR.setAll (reserveAll (fmtWrites s.cfg.bitOrder s.size.toNat (fmtWord level mask)))
    fmt := fmtWord level mask }

/-- The effect of MXFMT (R181). -/
def runMxfmt (a b : Byte) (s : State) : Result :=
  needOperand (levelInRange a && maskInRange b)
    (needMatrix s fun _ => .ok (s.placeFormat a.toNat b.toNat))

/-- MXFMT (R181) -/
def execMxfmt (a b : Byte) (s : State) : Host.Outcome State Fault Refusal :=
  finish (.mxfmt a b) s (runMxfmt a b s)

/-- The effect of FMTBITS (R182). -/
def runFmtbits (a b : Byte) (s : State) : Result :=
  needOperand (levelInRange a && maskInRange b)
    (.ok { s with result := (fmtWord a.toNat b.toNat).setWidth 32 })

/-- FMTBITS (R182) -/
def execFmtbits (a b : Byte) (s : State) : Host.Outcome State Fault Refusal :=
  finish (.fmtbits a b) s (runFmtbits a b s)

/-! ### Data placement -/

/-- The cells of one column pair, the right-hand column first in each row, upward or downward (R184). -/
def pairCells (side right : Nat) (upward : Bool) : List (Nat × Nat) :=
  (List.range side).flatMap fun vert =>
    let row := if upward then side - 1 - vert else vert
    [(row, right), (row, right - 1)]

/-- The `while right >= 1` loop of R184, for at most `fuel` pairs. -/
def zigzagFrom (side : Nat) : Nat → Nat → Bool → List (Nat × Nat)
  | 0, _, _ => []
  | fuel + 1, right, upward =>
    if right = 0 then []
    else
      let right' := if right = 6 then 5 else right
      pairCells side right' upward ++ zigzagFrom side fuel (right' - 2) (!upward)

/-- order(size): the zigzag traversal of all cells of the column pairs (R184). -/
def zigzag (side : Nat) : List (Nat × Nat) := zigzagFrom side side (side - 1) true

/-- The bits of a codeword stream, each byte most significant bit first (R9, R185). -/
def codewordBits (cw : List Byte) : List Bool := cw.flatMap fun b => bitsMsbFirst 8 b.toNat

/-- The loop of MXDATA over the cells still to visit, with the stream bits still to place and the count placed (R186): a
reserved cell is skipped; an unreserved one takes the next bit, or 0 after the last. None when R is unwritten at a visited
cell. -/
def placeBits (reserved : Plane) : List (Nat × Nat) → List Bool → Nat → Plane → Option (Plane × Nat)
  | [], _, k, m => some (m, k)
  | (r, c) :: cells, bits, k, m =>
    match reserved.get r c with
    | none => none
    | some true => placeBits reserved cells bits k m
    | some false =>
      match bits with
      | b :: bs => placeBits reserved cells bs (k + 1) (m.set r c b)
      | [] => placeBits reserved cells [] k (m.set r c false)

/-- The writes of MXDATA for a codeword stream: the unreserved cells of M, and BITCNT (R186). -/
def State.placeData (s : State) (stream : List Byte) : Option State :=
  (placeBits s.planeR (zigzag s.size.toNat) (codewordBits stream) 0 s.planeM).map fun res =>
    { s with planeM := res.1, bitcnt := BitVec.ofNat 12 res.2 }

/-- The effect of MXDATA (R186). -/
def runMxdata (s : State) : Result :=
  needOperand (cwlenInRange s.cwlen.toNat)
    (needMatrix s fun _ =>
      whenWritten (s.mem.readBytes cwBase s.cwlen.toNat) fun stream =>
        whenWritten (s.placeData stream) .ok)

/-- MXDATA (R186) -/
def execMxdata (s : State) : Host.Outcome State Fault Refusal :=
  finish .mxdata s (runMxdata s)

end Sys2Proof.Machine
end

