-- ==== Sys2Proof/Machine/Mask.lean ====
section
/-! DEFINITION. The Mask Selection Engine: MSKAPPLY, MSKSCORE, PENALTY and MSKSEL (R200 to R207). "side" is the side SIZE of the
current matrix. -/

namespace Sys2Proof.Machine

/-! ### Mask formulas -/

/-- cond(m, r, c) (R200). A mask id over 7 names no formula; every command checks the range first. -/
def maskCond (m r c : Nat) : Bool :=
  match m with
  | 0 => (r + c) % 2 == 0
  | 1 => r % 2 == 0
  | 2 => c % 3 == 0
  | 3 => (r + c) % 3 == 0
  | 4 => (r / 2 + c / 3) % 2 == 0
  | 5 => (r * c) % 2 + (r * c) % 3 == 0
  | 6 => ((r * c) % 2 + (r * c) % 3) % 2 == 0
  | 7 => ((r + c) % 2 + (r * c) % 3) % 2 == 0
  | _ => false

/-- Every cell of the current matrix satisfies `f`. -/
def forCells (side : Nat) (f : Nat → Nat → Bool) : Bool :=
  (List.range side).all fun r => (List.range side).all fun c => f r c

/-- The cells that applying mask m reads are written: R everywhere, and X where the mask inverts it (R46, R201). -/
def maskReadable (reserved x : Plane) (side m : Nat) : Bool :=
  forCells side fun r c =>
    match reserved.get r c with
    | none => false
    | some true => true
    | some false => !maskCond m r c || (x.get r c).isSome

/-- The cell (r, c) of a plane after mask m: inverted when it is unreserved and the formula holds, else unchanged (R201). -/
def maskedCell (reserved x : Plane) (side m r c : Nat) : Option Bool :=
  if r < side ∧ c < side then
    match reserved.get r c with
    | some false => if maskCond m r c then (x.get r c).map (!·) else x.get r c
    | _ => x.get r c
  else x.get r c

/-- apply_mask(X, m) with the reserved plane (R201); none when a cell it reads is unwritten. -/
def applyMask (reserved x : Plane) (side m : Nat) : Option Plane :=
  if maskReadable reserved x side m then some (Plane.build (maskedCell reserved x side m)) else none

/-! ### Penalty -/

/-- What a maximal run adds to the penalty (R202). -/
def runPenalty (run : Nat) : Nat := if 5 ≤ run then run - 2 else 0

/-- The loop of line_penalty after a cell with value `prev` that ends a run of length `run` so far (R202). -/
def linePenaltyFrom (prev : Bool) (run : Nat) : List Bool → Nat
  | [] => runPenalty run
  | x :: xs => if x = prev then linePenaltyFrom prev (run + 1) xs else runPenalty run + linePenaltyFrom x 1 xs

/-- line_penalty (R202). -/
def linePenalty : List Bool → Nat
  | [] => 0
  | x :: xs => linePenaltyFrom x 1 xs

/-- Row r of the current matrix, none when a cell is unwritten. -/
def Plane.row (p : Plane) (side r : Nat) : Option (List Bool) :=
  allPresent ((List.range side).map fun c => p.get r c)

/-- Column c of the current matrix, none when a cell is unwritten. -/
def Plane.col (p : Plane) (side c : Nat) : Option (List Bool) :=
  allPresent ((List.range side).map fun r => p.get r c)

/-- Every row, then every column. -/
def Plane.lines (p : Plane) (side : Nat) : Option (List (List Bool)) :=
  allPresent ((List.range side).map (p.row side) ++ (List.range side).map (p.col side))

/-- penalty(X): the sum over all rows and all columns (R202); none when a cell is unwritten. -/
def Plane.penalty (p : Plane) (side : Nat) : Option Nat :=
  (p.lines side).map fun ls => (ls.map linePenalty).sum

/-! ### Commands -/

/-- The write of MSKAPPLY: mask m on M (R204). -/
def State.maskMatrix (s : State) (m : Nat) : Option State :=
  (applyMask s.planeR s.planeM s.size.toNat m).map fun p => { s with planeM := p }

/-- The effect of MSKAPPLY (R204). -/
def runMskapply (a : Byte) (s : State) : Result :=
  needOperand (maskInRange a) (needMatrix s fun _ => whenWritten (s.maskMatrix a.toNat) .ok)

/-- MSKAPPLY (R204) -/
def execMskapply (a : Byte) (s : State) : Host.Outcome State Fault Refusal :=
  finish (.mskapply a) s (runMskapply a s)

/-- S is a fresh copy of M with mask m applied, and its penalty (R205, R207). What S keeps is not architectural (R43, log 7). -/
def State.scoreMask (s : State) (m : Nat) : Option (Plane × Nat) :=
  match applyMask s.planeR s.planeM s.size.toNat m with
  | none => none
  | some x => (x.penalty s.size.toNat).map fun p => (x, p)

/-- The writes of MSKSCORE: PENTAB[m] and RESULT, and the scratch plane (R205). -/
def State.putScore (s : State) (m : Nat) (res : Plane × Nat) : State :=
  { s with
    pentab := s.pentab.setIfInBounds m (BitVec.ofNat 16 res.2)
    result := BitVec.ofNat 32 res.2
    planeS := res.1 }

/-- The effect of MSKSCORE (R205). -/
def runMskscore (a : Byte) (s : State) : Result :=
  needOperand (maskInRange a)
    (needMatrix s fun _ => whenWritten (s.scoreMask a.toNat) fun res => .ok (s.putScore a.toNat res))

/-- MSKSCORE (R205) -/
def execMskscore (a : Byte) (s : State) : Host.Outcome State Fault Refusal :=
  finish (.mskscore a) s (runMskscore a s)

/-- The effect of PENALTY (R206). -/
def runPenaltyCmd (s : State) : Result :=
  needMatrix s fun side => whenWritten (s.planeM.penalty side) fun p => .ok { s with result := BitVec.ofNat 32 p }

/-- PENALTY (R206) -/
def execPenalty (s : State) : Host.Outcome State Fault Refusal :=
  finish .penalty s (runPenaltyCmd s)

/-- The index of the first least element: `best` has the score `low`, the rest starts at index `next` (R207: strictly lower,
the first minimum wins a tie). -/
def bestFrom (best low next : Nat) : List Nat → Nat
  | [] => best
  | p :: ps => if p < low then bestFrom next p (next + 1) ps else bestFrom best low (next + 1) ps

/-- The chosen mask id of a list of scores (R207). -/
def bestMask : List Nat → Nat
  | [] => 0
  | p :: ps => bestFrom 0 p 1 ps

/-- The eight scratch planes and scores, for m = 0..7 (R207). -/
def State.scoreAll (s : State) : Option (List (Plane × Nat)) :=
  allPresent ((List.range 8).map s.scoreMask)

/-- PENTAB[0..7] as a list of eight scores gives it (R207). -/
def penaltyTable (pen : List Nat) : Vector (BitVec 16) 8 := Vector.ofFn fun m => BitVec.ofNat 16 (pen.getD m.val 0)

/-- The writes of MSKSEL: PENTAB[0..7], MASKID, and the scratch plane as the last evaluation leaves it (R207). -/
def State.putSelection (s : State) (res : List (Plane × Nat)) : State :=
  { s with
    pentab := penaltyTable (res.map Prod.snd)
    maskid := BitVec.ofNat 3 (bestMask (res.map Prod.snd))
    planeS := (res.map Prod.fst).getLastD s.planeS }

/-- MSKSEL's selection (R207), none when a cell it reads is unwritten. -/
def State.selectMask (s : State) : Option State := s.scoreAll.map s.putSelection

/-- The effect of MSKSEL (R207). -/
def runMsksel (s : State) : Result := needMatrix s fun _ => whenWritten s.selectMask .ok

/-- MSKSEL (R207) -/
def execMsksel (s : State) : Host.Outcome State Fault Refusal :=
  finish .msksel s (runMsksel s)

end Sys2Proof.Machine
end

