-- ==== Sys2Proof/Machine/Gf.lean ====
section
/-! DEFINITION. GF(2^8) arithmetic: GFMUL and GFDIV (R110 to R117). -/

namespace Sys2Proof.Machine

/-- EXP[i] (R44, R111) -/
def GfRom.expAt (t : GfRom) (i : Nat) : Byte := t.exp.getD i 0#8

/-- LOG[a] (R44, R112) -/
def GfRom.logAt (t : GfRom) (a : Byte) : Nat := (t.log.getD a.toNat 0#8).toNat

/-- The product `a ⊗ b` (R114). -/
def GfRom.mul (t : GfRom) (a b : Byte) : Byte :=
  if a = 0#8 ∨ b = 0#8 then 0#8 else t.expAt ((t.logAt a + t.logAt b) % 255)

/-- The quotient (R115); none is DomainError, and the divisor is checked first (C1). -/
def GfRom.div (t : GfRom) (a b : Byte) : Option Byte :=
  if b = 0#8 then none
  else if a = 0#8 then some 0#8
  else some (t.expAt ((t.logAt a + 255 - t.logAt b) % 255))

/-- The effect of GFMUL (R116). -/
def runGfmul (a b : Byte) (s : State) : Result :=
  .ok { s with result := (s.rom.mul a b).setWidth 32 }

/-- GFMUL (R116) -/
def execGfmul (a b : Byte) (s : State) : Host.Outcome State Fault Refusal :=
  finish (.gfmul a b) s (runGfmul a b s)

/-- The effect of GFDIV (R117). -/
def runGfdiv (a b : Byte) (s : State) : Result :=
  match s.rom.div a b with
  | some q => .ok { s with result := q.setWidth 32 }
  | none => .error (.err .domain)

/-- GFDIV (R117) -/
def execGfdiv (a b : Byte) (s : State) : Host.Outcome State Fault Refusal :=
  finish (.gfdiv a b) s (runGfdiv a b s)

end Sys2Proof.Machine
end

