-- ==== Sys2Proof/Machine/ReedSolomon.lean ====
section
/-! DEFINITION. The Reed–Solomon encoder: RSGEN and RSENC (R150 to R158). A polynomial is a list of coefficients, highest
degree first (R151). -/

namespace Sys2Proof.Machine

/-- Coefficientwise exclusive or of two polynomials of one length (R110). -/
def xorPoly (p q : List Byte) : List Byte := List.zipWith (· ^^^ ·) p q

/-- Every coefficient times a field element. -/
def GfRom.scale (t : GfRom) (c : Byte) (p : List Byte) : List Byte := p.map fun x => t.mul x c

/-- One round of R152: the polynomial g times (x − α^i). -/
def GfRom.timesFactor (t : GfRom) (g : List Byte) (i : Nat) : List Byte :=
  xorPoly (g ++ [0#8]) (0#8 :: t.scale (t.expAt i) g)

/-- build_gen(n): the generator of degree n (R150, R152). -/
def GfRom.buildGen (t : GfRom) (n : Nat) : List Byte :=
  (List.range n).foldl t.timesFactor [1#8]

/-- One round of R155: the remainder register after the data codeword x. -/
def GfRom.divideStep (t : GfRom) (g : List Byte) (rem : List Byte) (x : Byte) : List Byte :=
  xorPoly (rem.drop 1 ++ [0#8]) (t.scale (x ^^^ rem.headD 0#8) g.tail)

/-- remainder(D, g): the error-correction codewords, highest degree first (R154, R155). -/
def GfRom.remainder (t : GfRom) (data g : List Byte) : List Byte :=
  data.foldl (t.divideStep g) (List.replicate (g.length - 1) 0#8)

/-- The write of RSGEN: GEN[0..n]; GEN[n+1..32] stays (R157). -/
def State.putGen (s : State) (n : Nat) : State :=
  { s with mem := s.mem.writeBytes genBase (s.rom.buildGen n) }

/-- The writes of RSENC for the data codewords it has read: GEN[0..n], CW[d..d+n−1] and CWLEN (R158). -/
def State.putEc (s : State) (d n : Nat) (data : List Byte) : State :=
  { s with
    mem := (s.putGen n).mem.writeBytes (cwBase + d) (s.rom.remainder data (s.rom.buildGen n))
    cwlen := BitVec.ofNat 32 (d + n) }

/-- The effect of RSGEN (R157). -/
def runRsgen (a : Byte) (s : State) : Result :=
  needOperand (degreeInRange a) (.ok (s.putGen a.toNat))

/-- RSGEN (R157) -/
def execRsgen (a : Byte) (s : State) : Host.Outcome State Fault Refusal :=
  finish (.rsgen a) s (runRsgen a s)

/-- The effect of RSENC (R158). CW[0..d−1] is read before anything is written. -/
def runRsenc (a b : Byte) (s : State) : Result :=
  needOperand (streamInRange a b)
    (whenWritten (s.mem.readBytes cwBase a.toNat) fun data =>
      .ok (s.putEc a.toNat b.toNat data))

/-- RSENC (R158) -/
def execRsenc (a b : Byte) (s : State) : Host.Outcome State Fault Refusal :=
  finish (.rsenc a b) s (runRsenc a b s)

end Sys2Proof.Machine
end

