-- ==== Sys2Proof/Machine/Pipeline.lean ====
section
/-! DEFINITION. The pipeline commands: NOP and ENCODE (R220, R221). -/

namespace Sys2Proof.Machine

/-- The effect of NOP: none but completion (R220). -/
def runNop (s : State) : Result := .ok s

/-- NOP (R220) -/
def execNop (s : State) : Host.Outcome State Fault Refusal :=
  finish .nop s (runNop s)

/-- The first half of ENCODE for a payload that passed every check: VER, CAP, the codeword stream and the generator, and a fresh
matrix with all fixed patterns and the placeholder format, mask id 0 (R221). -/
def State.buildSymbol (s : State) (level v : Nat) (p : List Byte) : State :=
  let d := (capacityOf v).1
  let n := (capacityOf v).2
  let s := { s with ver := BitVec.ofNat 32 v, cap := capWord v }
  let s := (s.putData d p).putEc d n (dataCodewords d p)
  (s.initMatrix v).placeFinders.placeSeparators.placeTiming.placeDark.placeFormat level 0

/-- CW[0..d+n−1] as ENCODE has just written it: the data codewords, then their remainder (R154, R221). -/
def State.symbolStream (s : State) (v : Nat) (p : List Byte) : List Byte :=
  let data := dataCodewords (capacityOf v).1 p
  data ++ s.rom.remainder data (s.rom.buildGen (capacityOf v).2)

/-- The second half of ENCODE: place the stream, select a mask on the copies, apply it, and write the final format (R221). -/
def State.finishSymbol (s : State) (level : Nat) (stream : List Byte) : Option State :=
  (s.placeData stream).bind fun s1 =>
    s1.selectMask.bind fun s2 =>
      (s2.maskMatrix s2.maskid.toNat).map fun s3 =>
        s3.placeFormat level s3.maskid.toNat

/-- The effect of ENCODE (R221). The version is version_for(LEN); the Host's VER is not read (D42). -/
def runEncode (a : Byte) (s : State) : Result :=
  let v := versionFor s.len.toNat
  needOperand (levelInRange a)
    (needCapacity s.cfg.overflow s.len.toNat (capacityOf v).1
      (whenWritten s.payloadBytes fun p =>
        whenWritten ((s.buildSymbol a.toNat v p).finishSymbol a.toNat (s.symbolStream v p)) .ok))

/-- ENCODE (R221) -/
def execEncode (a : Byte) (s : State) : Host.Outcome State Fault Refusal :=
  finish (.encode a) s (runEncode a s)

end Sys2Proof.Machine
end

