-- ==== Sys2Proof/Machine/Dispatch.lean ====
section
/-! DEFINITION. The meaning of every command: one arm per constructor, one direct call of its meaning. -/

namespace Sys2Proof.Machine

/-- The Engine executes a command legal in form (R232): the command's own rule, then the completion. -/
def exec (i : Instr) (s : State) : Host.Outcome State Fault Refusal :=
  match i with
  | .nop => Sys2Proof.Machine.execNop s
  | .gfmul a b => Sys2Proof.Machine.execGfmul a b s
  | .gfdiv a b => Sys2Proof.Machine.execGfdiv a b s
  | .fmtbits a b => Sys2Proof.Machine.execFmtbits a b s
  | .verfor => Sys2Proof.Machine.execVerfor s
  | .capof a => Sys2Proof.Machine.execCapof a s
  | .denc => Sys2Proof.Machine.execDenc s
  | .rsgen a => Sys2Proof.Machine.execRsgen a s
  | .rsenc a b => Sys2Proof.Machine.execRsenc a b s
  | .mxinit a => Sys2Proof.Machine.execMxinit a s
  | .mxfind => Sys2Proof.Machine.execMxfind s
  | .mxsep => Sys2Proof.Machine.execMxsep s
  | .mxtime => Sys2Proof.Machine.execMxtime s
  | .mxdark => Sys2Proof.Machine.execMxdark s
  | .mxfmt a b => Sys2Proof.Machine.execMxfmt a b s
  | .mxdata => Sys2Proof.Machine.execMxdata s
  | .mskapply a => Sys2Proof.Machine.execMskapply a s
  | .mskscore a => Sys2Proof.Machine.execMskscore a s
  | .penalty => Sys2Proof.Machine.execPenalty s
  | .msksel => Sys2Proof.Machine.execMsksel s
  | .encode a => Sys2Proof.Machine.execEncode a s

end Sys2Proof.Machine
end

