-- ==== Sys2Proof/Machine/Engine.lean ====
section
/-! DEFINITION. The Engine step (R96, R232). -/

namespace Sys2Proof.Machine

/-- The Engine executes the pending command word `w` as one atomic step (R232): a word not legal in form reports IllegalCommand
(R94, R96), any other runs its command. -/
def engineStep (w : Word) (s : State) : Host.Outcome State Fault Refusal :=
  match decode w with
  | .ok i => exec i s
  | .error _ => .next (s.reportError .illcmd w)

end Sys2Proof.Machine
end

