-- ==== Sys2Proof/Machine/HostPort.lean ====
section
/-! DEFINITION. The Host's side of the block: the window map (R61), the access rules (R62 to R68), the Host's coming events (R99,
log 4) and the platform reset (R260, R262). -/

namespace Sys2Proof.Machine

/-- What a legal offset and width name (R61). -/
inductive Place where
  | reg (r : Reg)
  | payload (k : Nat)
  | cw (k : Nat)
  | gen (k : Nat)
  | mat (r c : Nat)
  deriving DecidableEq, Repr

/-- The register at an aligned offset (R22 to R36, R61). -/
def registerAt (off : Nat) : Option Reg :=
  match off with
  | 0x00 => some .id
  | 0x04 => some .ctrl
  | 0x08 => some .status
  | 0x0C => some .cmd
  | 0x10 => some .result
  | 0x14 => some .errinfo
  | 0x18 => some .len
  | 0x1C => some .ver
  | 0x20 => some .cap
  | 0x24 => some .cwlen
  | 0x28 => some .size
  | 0x2C => some .fmt
  | 0x30 => some .maskid
  | 0x34 => some .bitcnt
  | 0x40 => some (.pentab 0)
  | 0x44 => some (.pentab 1)
  | 0x48 => some (.pentab 2)
  | 0x4C => some (.pentab 3)
  | 0x50 => some (.pentab 4)
  | 0x54 => some (.pentab 5)
  | 0x58 => some (.pentab 6)
  | 0x5C => some (.pentab 7)
  | _ => none

/-- The window map with its legal widths (R61 to R64): a register by an aligned 32-bit access, a buffer byte or a matrix cell by
an 8-bit access; none is an access to an unmapped offset or of a wrong width or alignment. -/
def placeAt (off : Nat) (n : Width) : Option Place :=
  match n with
  | .word => (registerAt off).map .reg
  | .half => none
  | .byte =>
    if 0x100 ≤ off ∧ off < 0x200 then some (.payload (off - 0x100))
    else if 0x200 ≤ off ∧ off < 0x300 then some (.cw (off - 0x200))
    else if 0x300 ≤ off ∧ off < 0x321 then some (.gen (off - 0x300))
    else if 0x1000 ≤ off ∧ off < 0x2000 then some (.mat ((off - 0x1000) / 64) ((off - 0x1000) % 64))
    else none

/-- The cell belongs to the current matrix: r and c are below SIZE, which then is not 0 (R64). -/
def State.cellInMatrix (s : State) (r c : Nat) : Bool := decide (r < s.size.toNat ∧ c < s.size.toNat)

/-- The byte of a written place, or ReadUnwritten (R46). -/
def byteOr (x : Option Byte) : Except Fault Word :=
  match x with
  | some b => .ok (b.setWidth 32)
  | none => .error .readUnwritten

/-- The MAT byte of a cell: the module in bit 0, the reserved flag in bit 1 (R64). -/
def matByte (module reserved : Bool) : Byte :=
  (if reserved then 2#8 else 0#8) ||| (if module then 1#8 else 0#8)

/-- The MAT byte of cell (r, c), none when M or R is unwritten there (R46, R64, log 11). -/
def State.matCell (s : State) (r c : Nat) : Option Byte :=
  match s.planeM.get r c, s.planeR.get r c with
  | some m, some q => some (matByte m q)
  | _, _ => none

/-- What a Host read of a place returns while BUSY = 0 (R62 to R64, R66). -/
def State.readPlace (s : State) : Place → Except Fault Word
  | .reg r => match s.readReg r with
    | some v => .ok v
    | none => .error .badAccess
  | .payload k => byteOr (s.payload k)
  | .cw k => byteOr (s.cw k)
  | .gen k => byteOr (s.gen k)
  | .mat r c => if s.cellInMatrix r c then byteOr (s.matCell r c) else .error .badAccess

/-- The state after a Host write of a place while BUSY = 0 (R62 to R64, R66). A byte place takes v[7:0]; MAT takes v[1:0]. -/
def State.writePlace (s : State) (v : Word) : Place → Except Fault State
  | .reg r => match s.writeReg v r with
    | some t => .ok t
    | none => .error .badAccess
  | .payload k => .ok { s with mem := s.mem.write (payloadBase + k) (v.setWidth 8) }
  | .cw k => .ok { s with mem := s.mem.write (cwBase + k) (v.setWidth 8) }
  | .gen _ => .error .badAccess
  | .mat r c =>
    if s.cellInMatrix r c then
      .ok { s with
        planeM := s.planeM.set r c (v.getLsbD 0)
        planeR := s.planeR.set r c (v.getLsbD 1) }
    else .error .badAccess

/-- The two accesses allowed while BUSY = 1: a 32-bit read of STATUS or of ID (R67, log 9). -/
def allowedWhileBusy : Access → Bool
  | .read off .word => registerAt off.toNat == some .status || registerAt off.toNat == some .id
  | .read _ .half => false
  | .read _ .byte => false
  | .write _ _ _ => false

/-- One Host access (R60 to R69). A read adds the value it returns to the Host's record; a write has its effect; an access the
rules do not allow is the model fault they name. -/
def State.hostAccess (s : State) (a : Access) : Except Fault State :=
  if s.busy && !allowedWhileBusy a then .error .busyAccess
  else
    match a with
    | .read off n =>
      match placeAt off.toNat n with
      | none => .error .badAccess
      | some q => (s.readPlace q).map fun v => { s with readLog := v :: s.readLog }
    | .write off n v =>
      match placeAt off.toNat n with
      | none => .error .badAccess
      | some q => s.writePlace v q

/-- The platform reset (R260, R262): a pending command is discarded and the whole state is the reset state. The parameters and
the record of the Host stay (log 14). -/
def State.platformReset (s : State) : State :=
  { State.resetWith s.cfg with hostQ := s.hostQ, readLog := s.readLog, issued := s.issued }

/-- One Host event is used up, and with it one of the events that come before a pending Engine step (R264, log 3). -/
def State.takeEvent (s : State) (rest : List HostEvent) : State :=
  { s with hostQ := rest, left := s.left - 1 }

/-- One Host event: an access; one poll of the `wait` loop, which stays at the head while STATUS reads BUSY = 1 (R99); or the
platform reset. -/
def hostStep (e : HostEvent) (rest : List HostEvent) (s : State) : Host.Outcome State Fault Refusal :=
  match e with
  | .access a =>
    match (s.takeEvent rest).hostAccess a with
    | .ok t => .next t
    | .error f => .fault f
  | .wait => .next (if s.busy then s.takeEvent (.wait :: rest) else s.takeEvent rest)
  | .reset => .next (s.takeEvent rest).platformReset

/-- Who moves next (R6, R264). -/
inductive Turn where
  /-- The Engine executes the pending word. -/
  | engine (w : Word)
  /-- The Host, or the platform, makes its next event. -/
  | host (e : HostEvent) (rest : List HostEvent)
  /-- No command is pending and no event is left: the block is idle. -/
  | idle
  deriving DecidableEq, Repr

/-- The Engine step comes after `left` more Host events, and at once when no event is left (R264, log 3). -/
def State.turn (s : State) : Turn :=
  match s.pend, s.hostQ with
  | none, [] => .idle
  | none, e :: rest => .host e rest
  | some w, [] => .engine w
  | some w, e :: rest => if s.left = 0 then .engine w else .host e rest

end Sys2Proof.Machine
end

