-- ==== Sys2Proof/Machine/HostProgram.lean ====
section
/-! DEFINITION. Host programs in the syntax of R99: the access forms and the pseudo-instructions with their expansions, as lists
of Host events. -/

namespace Sys2Proof.Machine

namespace HostProgram

/-- `wr32` at a register's offset (R99) -/
def wr32 (off : Offset) (v : Word) : List HostEvent := [.access (.write off .word v)]

/-- `rd32` at a register's offset (R99) -/
def rd32 (off : Offset) : List HostEvent := [.access (.read off .word)]

/-- `wr8` at a byte's offset (R99) -/
def wr8 (off : Offset) (v : Byte) : List HostEvent := [.access (.write off .byte (v.setWidth 32))]

/-- `rd8` at a byte's offset (R99) -/
def rd8 (off : Offset) : List HostEvent := [.access (.read off .byte)]

/-- `cmd MNEMONIC ops` (R99) -/
def cmd (i : Instr) : List HostEvent := wr32 0x00C#13 (encode i)

/-- `wait` (R99) -/
def wait : List HostEvent := [.wait]

/-- `run MNEMONIC ops` (R99) -/
def run (i : Instr) : List HostEvent := cmd i ++ wait

/-- `clr` (R99) -/
def clr : List HostEvent := wr32 0x008#13 0x0000000E#32

/-- Byte writes at rising offsets. -/
def loadBytes (off : Nat) : List Byte → List HostEvent
  | [] => []
  | b :: bs => wr8 (BitVec.ofNat 13 off) b ++ loadBytes (off + 1) bs

/-- `ldpay s` (R99) -/
def ldpay (p : List Byte) : List HostEvent :=
  wr32 0x018#13 (BitVec.ofNat 32 p.length) ++ loadBytes payloadBase p

/-- `ldcw b0 b1 ...` (R99) -/
def ldcw (bs : List Byte) : List HostEvent := loadBytes cwBase bs

/-- `cell r, c, v` (R99) -/
def cell (r c : Nat) (v : Byte) : List HostEvent := wr8 (BitVec.ofNat 13 (0x1000 + 64 * r + c)) v

end HostProgram

/-- The machine with a Host program to come: how a program is loaded (log 1). -/
def State.withHost (s : State) (es : List HostEvent) : State := { s with hostQ := es }

end Sys2Proof.Machine
end

