-- ==== Sys2Proof/Machine/Step.lean ====
section
/-! DEFINITION. One step of the machine: the Engine step, one Host event, or an idle block (R6, R232, R264). -/

namespace Sys2Proof.Machine

/-- One step. An idle block stays as it is: it fetches nothing and waits for the Host (R21). -/
def step (s : State) : Host.Outcome State Fault Refusal :=
  match s.turn with
  | .engine w => engineStep w s
  | .host e rest => hostStep e rest s
  | .idle => .next s

/-- The word `w` is pending, as an accepted CMD write leaves it, and the Engine moves next (R25, R45, log 1). -/
def State.withFetchWord (s : State) (nbits w : Nat) : State :=
  { s with pend := some (BitVec.ofNat 32 (w % 2 ^ nbits)), left := 0 }

end Sys2Proof.Machine
end

