-- ==== Sys2Proof/WellFormed.lean ====
section
/-! DEFINITION. The ranges of the immediate operands (R92): what a Host must write for a command not to report IllegalOperand
because of its word (R95). A word with an operand out of range is legal in form and runs: it reports ILLOPND. -/

namespace Sys2Proof

namespace WellFormed

/-- A level is 0..3 (R92). -/
def level (a : Byte) : Bool := a ≤ 3#8

/-- A mask id is 0..7 (R92). -/
def mask (a : Byte) : Bool := a ≤ 7#8

/-- A version is 1..5 (R92). -/
def version (a : Byte) : Bool := 1#8 ≤ a && a ≤ 5#8

/-- A Reed–Solomon degree n is 0..32 (R92). -/
def degree (a : Byte) : Bool := a ≤ 32#8

/-- d + n ≤ 256 (R92). -/
def streamLength (d n : Byte) : Bool := d.toNat + n.toNat ≤ 256

end WellFormed

/-- Every immediate operand is in the range of R92. -/
def Instr.wellFormed : Instr → Bool
  | .nop => true
  | .gfmul _ _ => true
  | .gfdiv _ _ => true
  | .fmtbits a b => WellFormed.level a && WellFormed.mask b
  | .verfor => true
  | .capof a => WellFormed.version a
  | .denc => true
  | .rsgen a => WellFormed.degree a
  | .rsenc a b => WellFormed.degree b && WellFormed.streamLength a b
  | .mxinit a => WellFormed.version a
  | .mxfind => true
  | .mxsep => true
  | .mxtime => true
  | .mxdark => true
  | .mxfmt a b => WellFormed.level a && WellFormed.mask b
  | .mxdata => true
  | .mskapply a => WellFormed.mask a
  | .mskscore a => WellFormed.mask a
  | .penalty => true
  | .msksel => true
  | .encode a => WellFormed.level a

end Sys2Proof
end

