-- ==== Sys2Proof/Safety.lean ====
section
/-! DEFINITION. What a safe run is, and the invariant of the machine, in the terms the statements use. -/

namespace Sys2Proof.Machine

/-! ### Runs -/

/-- `n` steps of the machine. -/
def runSteps (n : Nat) (s : State) : Host.Outcome State Fault Refusal := Sys2Proof.core.run n s

/-- A run of `n` steps is safe when no step of it ends in a model fault or a refusal (R238: a program that performs one is
outside the spec, and a proof about a program must show it performs none). -/
def SafeRun (n : Nat) (s : State) : Prop := ∃ t, runSteps n s = .next t

/-- The state after a sequence of commands, each executed to its completion, none when one of them stops. -/
def execAll : List Instr → State → Option State
  | [], s => some s
  | i :: is, s =>
    match exec i s with
    | .next t => execAll is t
    | .fault _ => none
    | .refused _ => none

/-! ### The invariant -/

/-- A window offset inside PAYLOAD, CW or GEN (R38 to R40, R61). -/
def InBuffers (a : Nat) : Prop :=
  (payloadBase ≤ a ∧ a < payloadBase + bufferBytes) ∨ (cwBase ≤ a ∧ a < cwBase + bufferBytes) ∨
    (genBase ≤ a ∧ a < genBase + genBytes)

/-- Every cell of the 37 by 37 plane is written (R46, R171). -/
def Plane.AllWritten (p : Plane) : Prop := ∀ r < maxSize, ∀ c < maxSize, (p.get r c).isSome = true

/-- SIZE is 0, or the side of one of the five versions (R33). -/
def LegalSize (z : BitVec 6) : Prop := z = 0#6 ∨ z = 21#6 ∨ z = 25#6 ∨ z = 29#6 ∨ z = 33#6 ∨ z = 37#6

/-- The invariant that every step keeps: storage in its canonical form and within the block's buffers (R70), the tables as they
are from reset on (R261), a legal SIZE (R33) whose matrix is written (R171), and no command pending while ERR = 1 (R25,
R234). -/
structure State.Inv (s : State) : Prop where
  /-- EXP and LOG hold their fixed contents (R44, R119, R261). -/
  rom : s.rom = GfRom.fixed
  /-- The buffers' list is in canonical form. -/
  memCanonical : s.mem.wf
  /-- No byte outside PAYLOAD, CW and GEN is ever written (R70). -/
  memInBuffers : ∀ p ∈ s.mem, InBuffers p.1
  /-- M has 37 rows of 37 cells (R41). -/
  shapeM : s.planeM.wf
  /-- R has 37 rows of 37 cells (R42). -/
  shapeR : s.planeR.wf
  /-- S has 37 rows of 37 cells (R43). -/
  shapeS : s.planeS.wf
  /-- SIZE is 0 or a side (R33). -/
  size : LegalSize s.size
  /-- With a matrix, every cell of M is written (R171). -/
  writtenM : s.size ≠ 0#6 → s.planeM.AllWritten
  /-- With a matrix, every cell of R is written (R171). -/
  writtenR : s.size ≠ 0#6 → s.planeR.AllWritten
  /-- No command is pending while ERR = 1: a CMD write is then dropped (R25, R234). -/
  noErrWhileBusy : s.pend.isSome = true → s.status.err = false

/-- The ranges the spec gives for what the registers can hold. -/
structure State.Ranges (s : State) : Prop where
  /-- ERRCODE is 0..5 (R231). -/
  errCode : s.status.errCode ≤ 5#4
  /-- ERRCODE is 0 only before the first error (R231). -/
  errNamed : s.status.err = true → s.status.errCode ≠ 0#4
  /-- CAP is 0 or an entry of the Version Capacity Table (R30, R130). -/
  cap : s.cap = 0#16 ∨ s.cap = 0x0713#16 ∨ s.cap = 0x0A22#16 ∨ s.cap = 0x0F37#16 ∨ s.cap = 0x1450#16 ∨ s.cap = 0x1A6C#16
  /-- BITCNT is at most 8 · 256 (R35, R186). -/
  bitcnt : s.bitcnt.toNat ≤ 2048
  /-- A penalty is at most 2 · 37 · 35 (R202). -/
  pentab : ∀ m < 8, (s.penaltyOf m).toNat ≤ 2590

end Sys2Proof.Machine
end

