-- ==== Sys2Proof/Certificates/Slice0/Obligations.lean ====
section
/-! DEFINITION. The statements about the block, for the provers. Under `Sys2Proof.Claims` stand the spec's own descriptions that
the statements compare the machine with, written apart from the model's definitions: arithmetic of GF(2^8) on polynomials over
GF(2) in place of tables, tables of the spec in place of algorithms, cell geometry in place of loops. -/

open Sys2Proof Sys2Proof.Machine

namespace Sys2Proof.Claims

/-! ### Completions (R232) -/

/-- A state with its command completed: DONE set and BUSY cleared, every other flag as it was (R232). -/
abbrev finished (u : State) : State :=
  { u with pend := none, status := { u.status with done := true } }

/-- A state with a reported error of the word `w`: ERR, ERRCODE, ERRINFO and DONE set, BUSY cleared, all else as it was (R232). -/
abbrev reported (s : State) (code : BitVec 4) (w : Word) : State :=
  { s with pend := none, status := { s.status with done := true, err := true, errCode := code }, errinfo := w }

/-- The one format of a command with opcode `opc` that uses field A, field B, or not: with every unused field and C equal to 0 the
Engine runs the command, with any of them nonzero it reports IllegalCommand (R90, R93, R94). -/
def CommandForm (opc : Byte) (usesA usesB : Bool) (mk : Byte → Byte → Instr) : Prop :=
  ∀ (w : Word) (s : State), w.extractLsb' 0 8 = opc →
    ((w.extractLsb' 24 8 = 0#8 ∧ (usesA = true ∨ w.extractLsb' 8 8 = 0#8) ∧ (usesB = true ∨ w.extractLsb' 16 8 = 0#8)) →
      engineStep w s = exec (mk (w.extractLsb' 8 8) (w.extractLsb' 16 8)) s) ∧
    (¬(w.extractLsb' 24 8 = 0#8 ∧ (usesA = true ∨ w.extractLsb' 8 8 = 0#8) ∧ (usesB = true ∨ w.extractLsb' 16 8 = 0#8)) →
      engineStep w s = .next (reported s 3#4 w))

/-- Mask and match of every row of spec/opcode_table.json. -/
def opcodeRows : List (Word × Word) :=
  [(0xFFFFFFFF#32, 0x00#32), (0xFF0000FF#32, 0x01#32), (0xFF0000FF#32, 0x02#32), (0xFF0000FF#32, 0x08#32),
   (0xFFFFFFFF#32, 0x10#32), (0xFFFF00FF#32, 0x11#32), (0xFFFFFFFF#32, 0x20#32), (0xFFFF00FF#32, 0x30#32),
   (0xFF0000FF#32, 0x31#32), (0xFFFF00FF#32, 0x40#32), (0xFFFFFFFF#32, 0x41#32), (0xFFFFFFFF#32, 0x42#32),
   (0xFFFFFFFF#32, 0x43#32), (0xFFFFFFFF#32, 0x44#32), (0xFF0000FF#32, 0x45#32), (0xFFFFFFFF#32, 0x46#32),
   (0xFFFF00FF#32, 0x50#32), (0xFFFF00FF#32, 0x51#32), (0xFFFFFFFF#32, 0x52#32), (0xFFFFFFFF#32, 0x53#32),
   (0xFFFF00FF#32, 0x60#32)]

/-- The word is legal in form: it matches a row under the row's mask (R93). -/
def LegalInForm (w : Word) : Prop := ∃ row ∈ opcodeRows, w &&& row.1 = row.2

/-! ### GF(2^8) as polynomials over GF(2) (R110) -/

/-- The product of two bytes read as polynomials over GF(2), before reduction. -/
def polyProduct (a b : Byte) : BitVec 16 :=
  (List.range 8).foldl (fun acc i => if b.getLsbD i then acc ^^^ (a.setWidth 16 <<< i) else acc) 0#16

/-- A polynomial of degree at most 14 modulo x^8 + x^4 + x^3 + x^2 + 1 (= 0x11D). -/
def modField (r : BitVec 16) : Byte :=
  ([14, 13, 12, 11, 10, 9, 8].foldl (fun x k => if x.getLsbD k then x ^^^ (0x11D#16 <<< (k - 8)) else x) r).setWidth 8

/-- Multiplication in GF(2^8) (R110). -/
def fieldMul (a b : Byte) : Byte := modField (polyProduct a b)

/-- α^i for the generator α = 2 (R110). -/
def alpha : Nat → Byte
  | 0 => 1#8
  | i + 1 => fieldMul (alpha i) 2#8

/-- The value at x of the polynomial with these coefficients, highest degree first. -/
def evalAt (x : Byte) (p : List Byte) : Byte := p.foldl (fun acc c => fieldMul acc x ^^^ c) 0#8

/-- (x − α^0)(x − α^1) ··· (x − α^(n−1)), with − the exclusive or (R150). -/
def rootProduct (x : Byte) : Nat → Byte
  | 0 => 1#8
  | n + 1 => fieldMul (rootProduct x n) (x ^^^ alpha n)

/-! ### The capacity table (R130, R131) -/

/-- (dataCodewords, ecCodewords) of versions 1 to 5 (R130). -/
def capacities : List (Nat × Nat) := [(19, 7), (34, 10), (55, 15), (80, 20), (108, 26)]

/-- d of a version (R130). -/
def dOf (v : Nat) : Nat := (capacities.getD (v - 1) (0, 0)).1

/-- n of a version (R130). -/
def nOf (v : Nat) : Nat := (capacities.getD (v - 1) (0, 0)).2

/-- The last payload length of versions 1 to 4 (R131); version 5 has the breakpoint ∞. -/
def breakpoints : List Nat := [17, 32, 53, 78]

/-- v is the smallest version whose breakpoint is not below the length L (R131). -/
def IsVersionFor (L v : Nat) : Prop :=
  1 ≤ v ∧ v ≤ 5 ∧ (∀ u, 1 ≤ u → u < v → breakpoints.getD (u - 1) 0 < L) ∧ (v < 5 → L ≤ breakpoints.getD (v - 1) 0)

/-- version_for(L): one more than the number of breakpoints below L (R131). -/
def versionOf (L : Nat) : Nat := 1 + (breakpoints.filter (· < L)).length

/-! ### The checks (R231, R233) -/

/-- An operand of the command with opcode `opc` and fields a, b is out of range, an immediate or VER of DENC or CWLEN of MXDATA
(R92, R231). -/
def operandBad (opc a b : Nat) (s : State) : Bool :=
  ((opc == 0x08 || opc == 0x45) && (3 < a || 7 < b)) || ((opc == 0x11 || opc == 0x40) && (a < 1 || 5 < a)) ||
    (opc == 0x30 && 32 < a) || (opc == 0x31 && (32 < b || 256 < a + b)) || ((opc == 0x50 || opc == 0x51) && 7 < a) ||
    (opc == 0x60 && 3 < a) || (opc == 0x20 && (s.ver.toNat < 1 || 5 < s.ver.toNat)) || (opc == 0x46 && 256 < s.cwlen.toNat)

/-- The commands that need a matrix (R231): MXFIND to MXDATA, MSKAPPLY to MSKSEL. -/
def needsMatrix (opc : Nat) : Bool := (0x41 ≤ opc && opc ≤ 0x46) || (0x50 ≤ opc && opc ≤ 0x53)

/-- The payload of DENC or ENCODE does not fit (R143). -/
def overlong (opc : Nat) (s : State) : Bool :=
  let d := if opc == 0x20 then dOf s.ver.toNat else dOf (versionOf s.len.toNat)
  (opc == 0x20 || opc == 0x60) && (255 < s.len.toNat || (d < s.len.toNat + 2 && s.cfg.overflow == .fault))

/-- The code of the first check that fails for the word w (R233), none when all pass. -/
def firstError (w : Word) (s : State) : Option (BitVec 4) :=
  let opc := (w.extractLsb' 0 8).toNat
  let a := (w.extractLsb' 8 8).toNat
  let b := (w.extractLsb' 16 8).toNat
  if !(opcodeRows.any fun row => w &&& row.1 == row.2) then some 3#4
  else if operandBad opc a b s then some 4#4
  else if needsMatrix opc && s.size == 0#6 then some 5#4
  else if overlong opc s then some 2#4
  else if opc == 0x02 && b == 0 then some 1#4
  else none

/-! ### The data codewords (R143, R144) -/

/-- PAYLOAD[0..LEN−1] is written and holds the bytes p (R28, R38). -/
def PayloadIs (s : State) (p : List Byte) : Prop :=
  p.length = s.len.toNat ∧ ∀ k < p.length, s.mem.read (0x100 + k) = p[k]?

/-- The packed stream of L bytes of payload is accepted for a capacity of d bytes (R143). -/
def Accepted (o : OverflowPolicy) (L d : Nat) : Prop := L ≤ 255 ∧ (L + 2 ≤ d ∨ o = .truncate)

/-- Data codeword j of the payload p (R144): header and count, the payload shifted by 4 bits, the terminator, the pad bytes. -/
def dataByte (p : List Byte) (j : Nat) : Byte :=
  if j = 0 then 0x40#8 ||| (BitVec.ofNat 8 p.length >>> 4)
  else if j = 1 then ((BitVec.ofNat 8 p.length &&& 0x0F#8) <<< 4) ||| (p.getD 0 0#8 >>> 4)
  else if j ≤ p.length then ((p.getD (j - 2) 0#8 &&& 0x0F#8) <<< 4) ||| (p.getD (j - 1) 0#8 >>> 4)
  else if j = p.length + 1 then (p.getD (j - 2) 0#8 &&& 0x0F#8) <<< 4
  else if (j - p.length - 2) % 2 = 0 then 0xEC#8 else 0x11#8

/-! ### Geometry of the matrix -/

/-- A row and column pair of one of the three corners with finders: its offset in the corner's square of `n` cells a side,
counted from the finder's own top-left cell side when that is the square's corner (R172, R173). -/
def InCorner (n side r c : Nat) : Prop :=
  (r < n ∧ c < n) ∨ (r < n ∧ side - n ≤ c ∧ c < side) ∨ (side - n ≤ r ∧ r < side ∧ c < n)

/-- The finder value at (r, c): its rings around the centre of the finder there (R172). The centre is 3 cells in from the two
edges of the matrix that the finder touches. -/
def finderDark (side r c : Nat) : Bool :=
  let dr := if r < 7 then r else side - 1 - r
  let dc := if c < 7 then c else side - 1 - c
  let ring := max (Int.natAbs ((dr : Int) - 3)) (Int.natAbs ((dc : Int) - 3))
  ring != 2

/-- A cell of the timing patterns: on row 6 or column 6, index 8..side − 9 (R175). -/
def InTiming (side r c : Nat) : Prop :=
  (r = 6 ∧ 8 ≤ c ∧ c ≤ side - 9) ∨ (c = 6 ∧ 8 ≤ r ∧ r ≤ side - 9)

/-- The format words of R177, by level and mask. -/
def formatTable : List (List (BitVec 15)) :=
  [[0x5412#15, 0x5125#15, 0x5E7C#15, 0x5B4B#15, 0x45F9#15, 0x40CE#15, 0x4F97#15, 0x4AA0#15],
   [0x77C4#15, 0x72F3#15, 0x7DAA#15, 0x789D#15, 0x662F#15, 0x6318#15, 0x6C41#15, 0x6976#15],
   [0x1689#15, 0x13BE#15, 0x1CE7#15, 0x19D0#15, 0x0762#15, 0x0255#15, 0x0D0C#15, 0x083B#15],
   [0x355F#15, 0x3068#15, 0x3F31#15, 0x3A06#15, 0x24B4#15, 0x2183#15, 0x2EDA#15, 0x2BED#15]]

/-- The format word of a level and a mask (R177). -/
def formatOf (level mask : Nat) : BitVec 15 := (formatTable.getD level []).getD mask 0#15

/-- Bit i of a format word, counted from the most significant under MSB_FIRST, from the least under LSB_FIRST (R178). -/
def formatBit (o : FmtBitOrder) (f : BitVec 15) (i : Nat) : Bool :=
  if o = .msbFirst then f.getLsbD (14 - i) else f.getLsbD i

/-- The cells of bits 0..14 in the first copy (R179). -/
def copyOne : List (Nat × Nat) :=
  [(8, 0), (8, 1), (8, 2), (8, 3), (8, 4), (8, 5), (8, 7), (8, 8), (7, 8), (5, 8), (4, 8), (3, 8), (2, 8), (1, 8), (0, 8)]

/-- The cells of bits 0..14 in the second copy: column 8 upward from the bottom row, then row 8 to the right edge (R180). -/
def copyTwo (side : Nat) : List (Nat × Nat) :=
  ([1, 2, 3, 4, 5, 6, 7, 8].map fun k => (side - k, 8)) ++ ([7, 6, 5, 4, 3, 2, 1].map fun k => (8, side - k))

/-- Both copies hold the format word f in the plane (R178 to R181). -/
def HoldsFormat (o : FmtBitOrder) (side : Nat) (m : Plane) (f : BitVec 15) : Prop :=
  ∀ i < 15, ∀ cell, (copyOne[i]? = some cell ∨ (copyTwo side)[i]? = some cell) →
    m.get cell.1 cell.2 = some (formatBit o f i)

/-- The right-hand column of the p-th column pair from the right: column 6 is skipped (R184). -/
def pairColumn (side p : Nat) : Nat := if side - 1 - 2 * p ≤ 6 then side - 2 - 2 * p else side - 1 - 2 * p

/-- order(size) in closed form: the column pairs from the right, the first upward, then alternating, the right-hand cell of each
row first (R184). -/
def cellOrder (side : Nat) : List (Nat × Nat) :=
  (List.range ((side - 1) / 2)).flatMap fun p =>
    (List.range side).flatMap fun k =>
      let row := if p % 2 = 0 then side - 1 - k else k
      [(row, pairColumn side p), (row, pairColumn side p - 1)]

/-- The unreserved cells in traversal order (R186). -/
def dataCells (reserved : Plane) (side : Nat) : List (Nat × Nat) :=
  (cellOrder side).filter fun cell => reserved.get cell.1 cell.2 == some false

/-- The mask condition of id m at (r, c) (R200). -/
def Condition (m r c : Nat) : Prop :=
  (m = 0 ∧ (r + c) % 2 = 0) ∨ (m = 1 ∧ r % 2 = 0) ∨ (m = 2 ∧ c % 3 = 0) ∨ (m = 3 ∧ (r + c) % 3 = 0) ∨
  (m = 4 ∧ (r / 2 + c / 3) % 2 = 0) ∨ (m = 5 ∧ (r * c) % 2 + (r * c) % 3 = 0) ∨
  (m = 6 ∧ ((r * c) % 2 + (r * c) % 3) % 2 = 0) ∨ (m = 7 ∧ ((r + c) % 2 + (r * c) % 3) % 2 = 0)

/-- The grid `after` is the plane x with mask m: an unreserved cell of the current matrix where the condition holds is inverted,
every other cell is as in x (R201). -/
def IsMasked (reserved x : Plane) (side m : Nat) (after : Nat → Nat → Option Bool) : Prop :=
  ∀ r c,
    ((r < side ∧ c < side ∧ reserved.get r c = some false ∧ Condition m r c) → after r c = (x.get r c).map (!·)) ∧
    (¬(r < side ∧ c < side ∧ reserved.get r c = some false ∧ Condition m r c) → after r c = x.get r c)

/-! ### The summary of writes (R48) -/

/-- The bytes a command may write, by window offset: CW[0..d−1] for DENC, GEN[0..n] for RSGEN, CW[d..d+n−1] and GEN[0..n] for RSENC,
CW[0..d+n−1] and GEN[0..n] for ENCODE, and no byte for any other command (R40, R48, R143, R157, R158, R221). -/
def MayWriteByte (i : Instr) (s : State) (a : Nat) : Prop :=
  match i with
  | .denc => 0x200 ≤ a ∧ a < 0x200 + dOf s.ver.toNat
  | .rsgen n => n ≤ 32#8 ∧ 0x300 ≤ a ∧ a ≤ 0x300 + n.toNat
  | .rsenc d n =>
    n ≤ 32#8 ∧ d.toNat + n.toNat ≤ 256 ∧
      ((0x200 + d.toNat ≤ a ∧ a < 0x200 + d.toNat + n.toNat) ∨ (0x300 ≤ a ∧ a ≤ 0x300 + n.toNat))
  | .encode _ =>
    let v := versionOf s.len.toNat
    (0x200 ≤ a ∧ a < 0x200 + dOf v + nOf v) ∨ (0x300 ≤ a ∧ a ≤ 0x300 + nOf v)
  | .nop | .gfmul _ _ | .gfdiv _ _ | .fmtbits _ _ | .verfor | .capof _ | .mxinit _ | .mxfind | .mxsep | .mxtime | .mxdark
  | .mxfmt _ _ | .mxdata | .mskapply _ | .mskscore _ | .penalty | .msksel => False

/-- The cells of M a command may write, by its own rule: every cell for MXINIT and ENCODE, the finders for MXFIND, their margins for
MXSEP, the timing cells, the dark module, the 30 format cells, the unreserved cells for MXDATA, and those of them where the mask
condition holds for MSKAPPLY (R48, R171 to R186, R201, R221). -/
def MayWriteModule (i : Instr) (s : State) (r c : Nat) : Prop :=
  let side := s.size.toNat
  match i with
  | .mxinit _ | .encode _ => True
  | .mxfind => InCorner 7 side r c
  | .mxsep => InCorner 8 side r c ∧ ¬InCorner 7 side r c
  | .mxtime => InTiming side r c
  | .mxdark => r = side - 8 ∧ c = 8
  | .mxfmt _ _ => (r, c) ∈ copyOne ++ copyTwo side
  | .mxdata => (r, c) ∈ dataCells s.planeR side
  | .mskapply m => r < side ∧ c < side ∧ s.planeR.get r c = some false ∧ Condition m.toNat r c
  | .nop | .gfmul _ _ | .gfdiv _ _ | .fmtbits _ _ | .verfor | .capof _ | .denc | .rsgen _ | .rsenc _ _ | .mskscore _ | .penalty
  | .msksel => False

/-- The cells of R a command may write, by its own rule: every cell for MXINIT and ENCODE, the finders with their margins for MXFIND,
the margins for MXSEP, the timing cells, the dark module and the 30 format cells (R48, R171 to R181, R221). -/
def MayWriteReserved (i : Instr) (s : State) (r c : Nat) : Prop :=
  let side := s.size.toNat
  match i with
  | .mxinit _ | .encode _ => True
  | .mxfind => InCorner 8 side r c
  | .mxsep => InCorner 8 side r c ∧ ¬InCorner 7 side r c
  | .mxtime => InTiming side r c
  | .mxdark => r = side - 8 ∧ c = 8
  | .mxfmt _ _ => (r, c) ∈ copyOne ++ copyTwo side
  | .nop | .gfmul _ _ | .gfdiv _ _ | .fmtbits _ _ | .verfor | .capof _ | .denc | .rsgen _ | .rsenc _ _ | .mxdata | .mskapply _
  | .mskscore _ | .penalty | .msksel => False

/-! ### Penalties (R202 to R207) -/

/-- The penalty of a line: L − 2 for every maximal run of length L ≥ 5 (R202, R203). -/
def linePoints (xs : List Bool) : Nat :=
  ((xs.splitBy (· == ·)).map fun run => if 5 ≤ run.length then run.length - 2 else 0).sum

/-- The penalty of a grid: every row and every column (R202). -/
def gridPoints (side : Nat) (cell : Nat → Nat → Bool) : Nat :=
  ((List.range side).map fun r => linePoints ((List.range side).map fun c => cell r c)).sum +
  ((List.range side).map fun c => linePoints ((List.range side).map fun r => cell r c)).sum

/-- The module of a written cell. -/
def moduleAt (p : Plane) (r c : Nat) : Bool := (p.get r c).getD false

/-- p is the penalty of the plane x with mask m (R205, R207). -/
def IsScore (s : State) (m p : Nat) : Prop :=
  ∃ after : Nat → Nat → Option Bool, IsMasked s.planeR s.planeM s.size.toNat m after ∧
    p = gridPoints s.size.toNat fun r c => (after r c).getD false

/-- The index `best` is the first of the least of eight scores (R207). -/
def FirstMinimum (score : Nat → Nat) (best : Nat) : Prop :=
  best < 8 ∧ (∀ m < 8, score best ≤ score m) ∧ ∀ m < best, score best < score m

/-! ### The Host's accesses (R61 to R66) -/

/-- A 32-bit register offset (R61, R62). -/
def RegisterOffset (off : Nat) : Prop := off % 4 = 0 ∧ (off < 0x38 ∨ (0x40 ≤ off ∧ off < 0x60))

/-- The offset names a cell of the current matrix (R64). -/
def CellOffset (side off : Nat) : Prop :=
  ∃ r c, r < side ∧ c < side ∧ r < 64 ∧ c < 64 ∧ off = 0x1000 + 64 * r + c

/-- The reads the window map allows while BUSY = 0 (R61 to R64, R66). -/
def ReadAllowed (side off : Nat) (n : Width) : Prop :=
  (n = .word ∧ RegisterOffset off ∧ off ≠ 0x00C) ∨ (n = .byte ∧ 0x100 ≤ off ∧ off ≤ 0x320) ∨
    (n = .byte ∧ CellOffset side off)

/-- The writes the window map allows while BUSY = 0: CTRL, STATUS, CMD, LEN, VER, CWLEN, PAYLOAD, CW and the current matrix (R23 to
R25, R28, R29, R31, R61 to R64, R66). -/
def WriteAllowed (side off : Nat) (n : Width) : Prop :=
  (n = .word ∧ (off = 0x004 ∨ off = 0x008 ∨ off = 0x00C ∨ off = 0x018 ∨ off = 0x01C ∨ off = 0x024)) ∨
    (n = .byte ∧ 0x100 ≤ off ∧ off ≤ 0x2FF) ∨ (n = .byte ∧ CellOffset side off)

end Sys2Proof.Claims

open Sys2Proof.Claims

/-! ### Encoding -/

/-- Decoding an encoded command gives it back, with both operands at every 8-bit value (R90 to R98). -/
def Obligations.DecodeOfEncodeIsTheCommand : Prop :=
  ∀ i : Instr, decode (encode i) = .ok i

/-- A word that decodes to a command is that command's encoding: each legal word has one meaning (R93, R96, R98). -/
def Obligations.DecodedWordIsTheEncoding : Prop :=
  ∀ (w : Word) (i : Instr), decode w = .ok i → encode i = w

/-- R93: a word decodes exactly when it is legal in form, that is when it matches a row of the opcode table under its mask. -/
def Obligations.DecodesExactlyWhenLegalInForm : Prop :=
  ∀ w : Word, (∃ i, decode w = .ok i) ↔ LegalInForm w

/-- R94: executing a word that is not legal in form reports IllegalCommand (code 3) with no other effect, in every state. -/
def Obligations.IllegalWordReportsIllegalCommand : Prop :=
  ∀ (w : Word) (s : State), ¬LegalInForm w → engineStep w s = .next (reported s 3#4 w)

/-- Words the spec writes out (95_test_vectors.md 2.1) decode to the commands it names. -/
def Obligations.WrittenOutWordsDecode : Prop :=
  decode 0x00CA5301#32 = .ok (.gfmul 0x53#8 0xCA#8) ∧ decode 0x00040108#32 = .ok (.fmtbits 1#8 4#8) ∧
  decode 0x00000411#32 = .ok (.capof 4#8) ∧ decode 0x00000020#32 = .ok .denc ∧
  decode 0x00071331#32 = .ok (.rsenc 19#8 7#8) ∧ decode 0x00040145#32 = .ok (.mxfmt 1#8 4#8) ∧
  decode 0x00000551#32 = .ok (.mskscore 5#8) ∧ decode 0x00000160#32 = .ok (.encode 1#8) ∧
  decode 0x00000003#32 = .error .unassignedOpcode ∧ decode 0xFF010101#32 = .error .nonzeroUnusedField

/-! ### The step, errors and frames -/

/-- A pending word that decodes is executed by the next step, as soon as no Host event comes before it (R232, R264; whose turn it is is
the model's choice, log 3); exec leaves PEND empty, so the step adds nothing around it. The Host's turn is the statement
StepMakesTheHostsEvent. -/
def Obligations.StepRunsThePendingCommand : Prop :=
  ∀ (s : State) (w : Word) (i : Instr), s.pend = some w → (s.left = 0 ∨ s.hostQ = []) → decode w = .ok i →
    step s = exec i s

/-- The command that a table word stands for runs as the very next step (R232; the model's way of starting a command, log 1). -/
def Obligations.FetchedTableWordRunsNext : Prop :=
  ∀ (s : State) (w : Nat) (i : Instr), decodeTableWord 32 w = some i →
    step (s.withFetchWord 32 w) = exec i (s.withFetchWord 32 w)

/-- R231, R232 and R233: the first check that fails decides the outcome of the Engine step, in every state. On a reported error the
only state changed is ERR, ERRCODE, ERRINFO, DONE and BUSY; with every check passed DONE is set and BUSY cleared, and ERR, ERRCODE,
DROP and ERRINFO stay, or the model stops with ReadUnwritten, which is met only after all checks. -/
def Obligations.FirstFailingCheckDecidesTheOutcome : Prop :=
  ∀ (w : Word) (s : State),
    (∀ code, firstError w s = some code → engineStep w s = .next (reported s code w)) ∧
    (firstError w s = none →
      (∃ t, engineStep w s = .next t ∧ t.pend = none ∧ t.status = { s.status with done := true } ∧ t.errinfo = s.errinfo) ∨
        engineStep w s = .fault .readUnwritten)

/-- With the invariant, only DENC, RSENC, MXDATA and ENCODE can stop on an unwritten byte (R46, R233, R238). -/
def Obligations.OnlyFourCommandsMeetUnwrittenBytes : Prop :=
  ∀ (i : Instr) (s : State) (f : Fault), s.Inv → exec i s = .fault f →
    f = .readUnwritten ∧ i.mnemonic ∈ ["DENC", "RSENC", "MXDATA", "ENCODE"]

/-- Each command writes the registers, bytes and cells its row of R48 names and no other, and no Host or configuration state: DENC only
CW[0..d−1], RSGEN only GEN[0..n], RSENC only CW[d..d+n−1] and GEN[0..n], ENCODE only CW[0..d+n−1] and GEN[0..n], each matrix command
only the cells of its own rule (the cells with the invariant, since they need a matrix of a legal SIZE). -/
def Obligations.CommandsWriteOnlyWhatTheTableLists : Prop :=
  ∀ (i : Instr) (s t : State), exec i s = .next t →
    (t.cfg = s.cfg ∧ t.ctrl = s.ctrl ∧ t.len = s.len ∧ t.rom = s.rom ∧ t.hostQ = s.hostQ ∧ t.readLog = s.readLog ∧
      t.left = s.left ∧ t.issued = s.issued ∧ t.status.drop = s.status.drop) ∧
    (i.mnemonic ∉ ["GFMUL", "GFDIV", "FMTBITS", "PENALTY", "MSKSCORE"] → t.result = s.result) ∧
    (i.mnemonic ∉ ["VERFOR", "ENCODE"] → t.ver = s.ver) ∧
    (i.mnemonic ∉ ["CAPOF", "ENCODE"] → t.cap = s.cap) ∧
    (i.mnemonic ∉ ["DENC", "RSENC", "ENCODE"] → t.cwlen = s.cwlen) ∧
    (∀ a, ¬MayWriteByte i s a → t.mem.read a = s.mem.read a) ∧
    (∀ a, a < 0x200 ∨ 0x321 ≤ a → t.mem.read a = s.mem.read a) ∧
    (i.mnemonic ∉ ["MXINIT", "ENCODE"] → t.size = s.size) ∧
    (i.mnemonic ∉ ["MXINIT", "MXFIND", "MXSEP", "MXTIME", "MXDARK", "MXFMT", "MXDATA", "MSKAPPLY", "ENCODE"] →
      ∀ r c, t.planeM.get r c = s.planeM.get r c) ∧
    (i.mnemonic ∉ ["MXINIT", "MXFIND", "MXSEP", "MXTIME", "MXDARK", "MXFMT", "ENCODE"] →
      ∀ r c, t.planeR.get r c = s.planeR.get r c) ∧
    (s.Inv → ∀ r c,
      (¬MayWriteModule i s r c → t.planeM.get r c = s.planeM.get r c) ∧
      (¬MayWriteReserved i s r c → t.planeR.get r c = s.planeR.get r c)) ∧
    (i.mnemonic ∉ ["MXDATA", "ENCODE"] → t.bitcnt = s.bitcnt) ∧
    (i.mnemonic ∉ ["MXFMT", "ENCODE"] → t.fmt = s.fmt) ∧
    (i.mnemonic ∉ ["MSKSEL", "ENCODE"] → t.maskid = s.maskid ∧
      ∀ m < 8, i ≠ .mskscore (BitVec.ofNat 8 m) → t.penaltyOf m = s.penaltyOf m)

/-- A command reads neither CTRL nor the Host's side of the machine: with those changed it does the same (R23, R71; the Host's
fields are the model's own, log 3 and log 4). -/
def Obligations.CommandsIgnoreCtrlAndHostRecord : Prop :=
  ∀ (i : Instr) (s t : State) (c : Ctrl) (q : List HostEvent) (l : List Word) (n k : Nat), exec i s = .next t →
    exec i { s with ctrl := c, hostQ := q, readLog := l, left := n, issued := k } =
      .next { t with ctrl := c, hostQ := q, readLog := l, left := n, issued := k }

/-- A command that reads an unwritten byte after all its checks have passed is the model fault ReadUnwritten (R46, R145, R158, R186,
R221, R233). -/
def Obligations.UnwrittenInputStopsTheModel : Prop :=
  (∀ (s : State) (k : Nat), 1 ≤ s.ver.toNat → s.ver.toNat ≤ 5 → Accepted s.cfg.overflow s.len.toNat (dOf s.ver.toNat) →
    k < s.len.toNat → s.mem.read (0x100 + k) = none → exec .denc s = .fault .readUnwritten) ∧
  (∀ (d n : Byte) (s : State) (k : Nat), n ≤ 32#8 → d.toNat + n.toNat ≤ 256 →
    k < d.toNat → s.mem.read (0x200 + k) = none → exec (.rsenc d n) s = .fault .readUnwritten) ∧
  (∀ (s : State) (k : Nat), s.size ≠ 0#6 → s.cwlen.toNat ≤ 256 →
    k < s.cwlen.toNat → s.mem.read (0x200 + k) = none → exec .mxdata s = .fault .readUnwritten) ∧
  (∀ (a : Byte) (s : State) (v k : Nat), a ≤ 3#8 → IsVersionFor s.len.toNat v → Accepted s.cfg.overflow s.len.toNat (dOf v) →
    k < s.len.toNat → s.mem.read (0x100 + k) = none → exec (.encode a) s = .fault .readUnwritten)

/-! ### GF(2^8) -/

/-- R111, R112 and R113: EXP is the iteration of the generator, its first 255 entries are nonzero, LOG is its inverse map (so they are
distinct), LOG[0] is 0 and EXP[255] is EXP[0]. -/
def Obligations.TablesIterateTheGenerator : Prop :=
  State.reset.rom.exp.length = 256 ∧ State.reset.rom.log.length = 256 ∧
  State.reset.rom.expAt 0 = 1#8 ∧ State.reset.rom.expAt 255 = 1#8 ∧ State.reset.rom.logAt 0#8 = 0 ∧
  (∀ i < 254, State.reset.rom.expAt (i + 1) =
    if (State.reset.rom.expAt i).getLsbD 7 then (State.reset.rom.expAt i <<< 1) ^^^ 0x1D#8 else State.reset.rom.expAt i <<< 1) ∧
  (∀ i < 255, State.reset.rom.expAt i ≠ 0#8 ∧ State.reset.rom.logAt (State.reset.rom.expAt i) = i)

/-- The laws of R118 for the block's multiply and divide: commutative, associative, distributive over ⊕, 1 neutral, no divisors of
zero, division the inverse of multiplication, and EXP[(i + j) mod 255] the product of EXP[i] and EXP[j]. -/
def Obligations.MultiplyAndDivideObeyTheFieldLaws : Prop :=
  (∀ a b c : Byte,
    GfRom.fixed.mul a b = GfRom.fixed.mul b a ∧
    GfRom.fixed.mul (GfRom.fixed.mul a b) c = GfRom.fixed.mul a (GfRom.fixed.mul b c) ∧
    GfRom.fixed.mul a (b ^^^ c) = GfRom.fixed.mul a b ^^^ GfRom.fixed.mul a c ∧
    GfRom.fixed.mul 1#8 a = a ∧ (GfRom.fixed.mul a b = 0#8 ↔ a = 0#8 ∨ b = 0#8) ∧
    (b ≠ 0#8 → ∃ q, GfRom.fixed.div a b = some q ∧ GfRom.fixed.mul q b = a ∧
      GfRom.fixed.div (GfRom.fixed.mul a b) b = some a)) ∧
  ∀ i ≤ 255, ∀ j ≤ 255, GfRom.fixed.expAt ((i + j) % 255) = GfRom.fixed.mul (GfRom.fixed.expAt i) (GfRom.fixed.expAt j)

/-- R116: GFMUL puts the field product of A and B into RESULT, the upper bits 0, and changes nothing else. -/
def Obligations.GfmulIsThePolynomialProduct : Prop :=
  CommandForm 0x01#8 true true .gfmul ∧
  ∀ (a b : Byte) (s : State), s.rom = GfRom.fixed →
    exec (.gfmul a b) s = .next (finished { s with result := (fieldMul a b).setWidth 32 })

/-- GFDIV puts the one quotient q with q ⊗ B = A into RESULT when B is not 0; with B = 0, for every A, it reports DomainError
(code 1) and RESULT is unchanged (R117). That the quotient is this q is what R115 derives: "The last fact fixes the quotient as the
unique q with q ⊗ b = a" (its index formula is marked general knowledge). -/
def Obligations.GfdivIsTheFieldQuotient : Prop :=
  CommandForm 0x02#8 true true .gfdiv ∧
  (∀ (a b q : Byte) (s : State), s.rom = GfRom.fixed → b ≠ 0#8 → fieldMul q b = a →
    exec (.gfdiv a b) s = .next (finished { s with result := q.setWidth 32 })) ∧
  (∀ a b : Byte, b ≠ 0#8 → ∃ q, fieldMul q b = a) ∧
  (∀ (a : Byte) (s : State), exec (.gfdiv a 0#8) s = .next (reported s 1#4 (0#16 ++ a ++ 0x02#8)))

/-! ### Capacity and data encoder -/

/-- R133: VERFOR puts into VER the smallest version whose breakpoint is not below LEN, for every LEN, and changes nothing else. -/
def Obligations.VerforChoosesTheSmallestVersion : Prop :=
  CommandForm 0x10#8 false false (fun _ _ => .verfor) ∧
  ∀ s : State, ∃ v, IsVersionFor s.len.toNat v ∧
    exec .verfor s = .next (finished { s with ver := BitVec.ofNat 32 v })

/-- R134: CAPOF puts n << 8 | d of the capacity table into CAP for versions 1..5, and reports IllegalOperand for any other. -/
def Obligations.CapofReadsTheCapacityTable : Prop :=
  CommandForm 0x11#8 true false (fun a _ => .capof a) ∧
  (∀ (a : Byte) (s : State), 1 ≤ a.toNat → a.toNat ≤ 5 →
    exec (.capof a) s = .next (finished { s with cap := BitVec.ofNat 16 (nOf a.toNat * 256 + dOf a.toNat) })) ∧
  (∀ (a : Byte) (s : State), ¬(1 ≤ a.toNat ∧ a.toNat ≤ 5) →
    exec (.capof a) s = .next (reported s 4#4 (0#16 ++ a ++ 0x11#8)))

/-- DENC writes the data codewords of R144 to CW[0..d−1] and d to CWLEN, under TRUNCATE the first d of them, and changes no other byte
and nothing else (R143 to R145). -/
def Obligations.DencWritesTheClosedForm : Prop :=
  CommandForm 0x20#8 false false (fun _ _ => .denc) ∧
  ∀ (s : State) (p : List Byte), 1 ≤ s.ver.toNat → s.ver.toNat ≤ 5 → PayloadIs s p →
    Accepted s.cfg.overflow p.length (dOf s.ver.toNat) →
    ∃ t, exec .denc s = .next t ∧
      t = finished { s with mem := t.mem, cwlen := BitVec.ofNat 32 (dOf s.ver.toNat) } ∧
      (∀ j < dOf s.ver.toNat, t.mem.read (0x200 + j) = some (dataByte p j)) ∧
      (∀ a, a < 0x200 ∨ 0x200 + dOf s.ver.toNat ≤ a → t.mem.read a = s.mem.read a)

/-! ### Reed–Solomon -/

/-- R150 and R157: RSGEN n writes to GEN[0..n] the coefficients, highest degree first, of the polynomial (x − α^0)···(x − α^(n−1)),
monic of degree n, and changes no other byte and nothing else; it reports IllegalOperand for n over 32. -/
def Obligations.RsgenBuildsTheRootProduct : Prop :=
  CommandForm 0x30#8 true false (fun a _ => .rsgen a) ∧
  (∀ (n : Byte) (s : State), ¬n ≤ 32#8 → exec (.rsgen n) s = .next (reported s 4#4 (0#16 ++ n ++ 0x30#8))) ∧
  ∀ (n : Byte) (s : State), n ≤ 32#8 → s.rom = GfRom.fixed →
    ∃ t g, exec (.rsgen n) s = .next t ∧ t = finished { s with mem := t.mem } ∧
      g.length = n.toNat + 1 ∧ g[0]? = some 1#8 ∧ (∀ x, evalAt x g = rootProduct x n.toNat) ∧
      (∀ k ≤ n.toNat, t.mem.read (0x300 + k) = g[k]?) ∧
      (∀ a, a < 0x300 ∨ 0x300 + n.toNat < a → t.mem.read a = s.mem.read a)

/-- RSENC d, n: the n bytes it appends make the whole stream CW[0..d+n−1] a codeword, zero at α^0..α^(n−1), which fixes them as the
remainder; GEN[0..n] is the generator, CWLEN is d + n, the data and every other byte stay (R153, R154, R156, R158). -/
def Obligations.RsencMakesACodeword : Prop :=
  CommandForm 0x31#8 true true .rsenc ∧
  ∀ (d n : Byte) (s : State) (data : List Byte), n ≤ 32#8 → d.toNat + n.toNat ≤ 256 → s.rom = GfRom.fixed →
    data.length = d.toNat → (∀ k < d.toNat, s.mem.read (0x200 + k) = data[k]?) →
    ∃ t g ec, exec (.rsenc d n) s = .next t ∧
      t = finished { s with mem := t.mem, cwlen := BitVec.ofNat 32 (d.toNat + n.toNat) } ∧
      ec.length = n.toNat ∧ (∀ j < n.toNat, t.mem.read (0x200 + d.toNat + j) = ec[j]?) ∧
      (∀ i < n.toNat, evalAt (alpha i) (data ++ ec) = 0#8) ∧
      g.length = n.toNat + 1 ∧ g[0]? = some 1#8 ∧ (∀ x, evalAt x g = rootProduct x n.toNat) ∧
      (∀ k ≤ n.toNat, t.mem.read (0x300 + k) = g[k]?) ∧
      (∀ a, (a < 0x200 + d.toNat ∨ 0x200 + d.toNat + n.toNat ≤ a) → (a < 0x300 ∨ 0x300 + n.toNat < a) →
        t.mem.read a = s.mem.read a)

/-- The error-correction codewords are linear over GF(2^8) in the data: additive and homogeneous; they are n zero bytes for zero data,
no data at all included, and the remainder is empty for n = 0 (R156 (b) to (e)). -/
def Obligations.RemainderIsLinear : Prop :=
  (∀ (n : Nat) (x y : List Byte), x.length = y.length →
    GfRom.fixed.remainder (List.zipWith (· ^^^ ·) x y) (GfRom.fixed.buildGen n) =
      List.zipWith (· ^^^ ·) (GfRom.fixed.remainder x (GfRom.fixed.buildGen n))
        (GfRom.fixed.remainder y (GfRom.fixed.buildGen n)) ∧
    GfRom.fixed.remainder (List.replicate x.length 0#8) (GfRom.fixed.buildGen n) = List.replicate n 0#8) ∧
  (∀ (n : Nat) (c : Byte) (x : List Byte),
    GfRom.fixed.remainder (x.map (GfRom.fixed.mul c)) (GfRom.fixed.buildGen n) =
      (GfRom.fixed.remainder x (GfRom.fixed.buildGen n)).map (GfRom.fixed.mul c)) ∧
  ∀ x : List Byte, GfRom.fixed.remainder x (GfRom.fixed.buildGen 0) = []

/-! ### Matrix builder -/

/-- R171: MXINIT v sets SIZE to 4 v + 17, writes every cell of M and R to 0, and changes nothing else; it reports IllegalOperand for
v outside 1..5. -/
def Obligations.MxinitClearsAWholeMatrix : Prop :=
  CommandForm 0x40#8 true false (fun a _ => .mxinit a) ∧
  (∀ (a : Byte) (s : State), 1 ≤ a.toNat → a.toNat ≤ 5 →
    ∃ t, exec (.mxinit a) s = .next t ∧
      t = finished { s with size := BitVec.ofNat 6 (4 * a.toNat + 17), planeM := t.planeM, planeR := t.planeR } ∧
      ∀ r < 37, ∀ c < 37, t.planeM.get r c = some false ∧ t.planeR.get r c = some false) ∧
  (∀ (a : Byte) (s : State), ¬(1 ≤ a.toNat ∧ a.toNat ≤ 5) →
    exec (.mxinit a) s = .next (reported s 4#4 (0#16 ++ a ++ 0x40#8)))

/-- MXFIND: every cell of the three 8 by 8 corners becomes reserved, the three 7 by 7 finders get their rings, and every other
reserved bit and module, the margins' modules among them, stays (R172, R173); with SIZE = 0 it reports NotInitialised. -/
def Obligations.MxfindDrawsTheThreeFinders : Prop :=
  CommandForm 0x41#8 false false (fun _ _ => .mxfind) ∧
  (∀ s : State, s.size = 0#6 → exec .mxfind s = .next (reported s 5#4 0x41#32)) ∧
  ∀ s : State, s.Inv → s.size ≠ 0#6 →
    ∃ t, exec .mxfind s = .next t ∧ t = finished { s with planeM := t.planeM, planeR := t.planeR } ∧
      ∀ r c,
        (InCorner 8 s.size.toNat r c → t.planeR.get r c = some true) ∧
        (¬InCorner 8 s.size.toNat r c → t.planeR.get r c = s.planeR.get r c) ∧
        (InCorner 7 s.size.toNat r c → t.planeM.get r c = some (finderDark s.size.toNat r c)) ∧
        (¬InCorner 7 s.size.toNat r c → t.planeM.get r c = s.planeM.get r c)

/-- MXSEP: the cells of the 8 by 8 corners outside the 7 by 7 finders become light and reserved, every other cell stays (R174);
with SIZE = 0 it reports NotInitialised. -/
def Obligations.MxsepFramesTheFinders : Prop :=
  CommandForm 0x42#8 false false (fun _ _ => .mxsep) ∧
  (∀ s : State, s.size = 0#6 → exec .mxsep s = .next (reported s 5#4 0x42#32)) ∧
  ∀ s : State, s.Inv → s.size ≠ 0#6 →
    ∃ t, exec .mxsep s = .next t ∧ t = finished { s with planeM := t.planeM, planeR := t.planeR } ∧
      ∀ r c,
        ((InCorner 8 s.size.toNat r c ∧ ¬InCorner 7 s.size.toNat r c) →
          t.planeM.get r c = some false ∧ t.planeR.get r c = some true) ∧
        (¬(InCorner 8 s.size.toNat r c ∧ ¬InCorner 7 s.size.toNat r c) →
          t.planeM.get r c = s.planeM.get r c ∧ t.planeR.get r c = s.planeR.get r c)

/-- R175: MXTIME writes "index is even" on row 6 and column 6 at indices 8..size − 9 and reserves those cells, every other cell
stays; with SIZE = 0 it reports NotInitialised. -/
def Obligations.MxtimeAlternatesBetweenTheFinders : Prop :=
  CommandForm 0x43#8 false false (fun _ _ => .mxtime) ∧
  (∀ s : State, s.size = 0#6 → exec .mxtime s = .next (reported s 5#4 0x43#32)) ∧
  ∀ s : State, s.Inv → s.size ≠ 0#6 →
    ∃ t, exec .mxtime s = .next t ∧ t = finished { s with planeM := t.planeM, planeR := t.planeR } ∧
      ∀ r c,
        (InTiming s.size.toNat r c →
          t.planeM.get r c = some (decide ((r + c) % 2 = 0)) ∧ t.planeR.get r c = some true) ∧
        (¬InTiming s.size.toNat r c →
          t.planeM.get r c = s.planeM.get r c ∧ t.planeR.get r c = s.planeR.get r c)

/-- R176: MXDARK makes the cell (size − 8, 8) dark and reserved, every other cell stays; with SIZE = 0 it reports NotInitialised. -/
def Obligations.MxdarkSetsOneCell : Prop :=
  CommandForm 0x44#8 false false (fun _ _ => .mxdark) ∧
  (∀ s : State, s.size = 0#6 → exec .mxdark s = .next (reported s 5#4 0x44#32)) ∧
  ∀ s : State, s.size ≠ 0#6 →
    ∃ t, exec .mxdark s = .next t ∧ t = finished { s with planeM := t.planeM, planeR := t.planeR } ∧
      ∀ r c,
        ((r = s.size.toNat - 8 ∧ c = 8) → t.planeM.get r c = some true ∧ t.planeR.get r c = some true) ∧
        (¬(r = s.size.toNat - 8 ∧ c = 8) →
          t.planeM.get r c = s.planeM.get r c ∧ t.planeR.get r c = s.planeR.get r c)

/-- MXFMT level, mask: both copies hold the format word of R177 bit by bit, their 30 cells are reserved, FMT holds the word, and
every other cell and everything else stays (R178 to R181); it reports IllegalOperand, then NotInitialised. -/
def Obligations.MxfmtWritesTheWordTwice : Prop :=
  CommandForm 0x45#8 true true .mxfmt ∧
  (∀ (a b : Byte) (s : State), ¬(a ≤ 3#8 ∧ b ≤ 7#8) → exec (.mxfmt a b) s = .next (reported s 4#4 (0#8 ++ b ++ a ++ 0x45#8))) ∧
  (∀ (a b : Byte) (s : State), a ≤ 3#8 → b ≤ 7#8 → s.size = 0#6 →
    exec (.mxfmt a b) s = .next (reported s 5#4 (0#8 ++ b ++ a ++ 0x45#8))) ∧
  ∀ (a b : Byte) (s : State), a ≤ 3#8 → b ≤ 7#8 → s.Inv → s.size ≠ 0#6 →
    ∃ t, exec (.mxfmt a b) s = .next t ∧
      t = finished { s with planeM := t.planeM, planeR := t.planeR, fmt := formatOf a.toNat b.toNat } ∧
      HoldsFormat s.cfg.bitOrder s.size.toNat t.planeM (formatOf a.toNat b.toNat) ∧
      ∀ r c,
        ((r, c) ∈ copyOne ++ copyTwo s.size.toNat → t.planeR.get r c = some true) ∧
        ((r, c) ∉ copyOne ++ copyTwo s.size.toNat →
          t.planeM.get r c = s.planeM.get r c ∧ t.planeR.get r c = s.planeR.get r c)

/-- R182: FMTBITS level, mask puts the format word of R177 into RESULT, with or without a matrix, and changes nothing else; it reports
IllegalOperand for a level over 3 or a mask over 7. -/
def Obligations.FmtbitsReturnsTheFormatWord : Prop :=
  CommandForm 0x08#8 true true .fmtbits ∧
  (∀ (a b : Byte) (s : State), a ≤ 3#8 → b ≤ 7#8 →
    exec (.fmtbits a b) s = .next (finished { s with result := (formatOf a.toNat b.toNat).setWidth 32 })) ∧
  (∀ (a b : Byte) (s : State), ¬(a ≤ 3#8 ∧ b ≤ 7#8) →
    exec (.fmtbits a b) s = .next (reported s 4#4 (0#8 ++ b ++ a ++ 0x08#8)))

/-- MXDATA: the k-th unreserved cell in zigzag order takes stream bit k, most significant bit of each byte first, or light after the
last bit; reserved cells and R stay; BITCNT is the number of bits placed (R184 to R186). -/
def Obligations.MxdataFillsTheUnreservedCells : Prop :=
  CommandForm 0x46#8 false false (fun _ _ => .mxdata) ∧
  ∀ (s : State) (cw : List Byte), s.Inv → s.size ≠ 0#6 → s.cwlen.toNat ≤ 256 → cw.length = s.cwlen.toNat →
    (∀ k < cw.length, s.mem.read (0x200 + k) = cw[k]?) →
    ∃ t, exec .mxdata s = .next t ∧
      t = finished { s with
        planeM := t.planeM
        bitcnt := BitVec.ofNat 12 (min (8 * cw.length) (dataCells s.planeR s.size.toNat).length) } ∧
      (∀ k cell, (dataCells s.planeR s.size.toNat)[k]? = some cell →
        t.planeM.get cell.1 cell.2 =
          some (if k < 8 * cw.length then (cw.getD (k / 8) 0#8).getLsbD (7 - k % 8) else false)) ∧
      (∀ r c, (r, c) ∉ dataCells s.planeR s.size.toNat → t.planeM.get r c = s.planeM.get r c)

/-- The zigzag visits every cell of the matrix outside column 6 exactly once, from the bottom-right corner (R184). -/
def Obligations.ZigzagVisitsEveryCellOnce : Prop :=
  ∀ z : BitVec 6, LegalSize z → z ≠ 0#6 →
    (zigzag z.toNat).Nodup ∧ (zigzag z.toNat).head? = some (z.toNat - 1, z.toNat - 1) ∧
    ∀ r c, (r, c) ∈ zigzag z.toNat ↔ r < z.toNat ∧ c < z.toNat ∧ c ≠ 6

/-- Reserved cells: no command but MXINIT and ENCODE clears a reserved bit, and neither data placement nor masking changes the module
of a reserved cell (R42, R170, R186, R201). -/
def Obligations.ReservedCellsStayReserved : Prop :=
  ∀ (i : Instr) (s t : State) (r c : Nat), s.Inv → i.mnemonic ∉ ["MXINIT", "ENCODE"] → exec i s = .next t →
    s.planeR.get r c = some true →
    t.planeR.get r c = some true ∧ (i.mnemonic ∈ ["MXDATA", "MSKAPPLY"] → t.planeM.get r c = s.planeM.get r c)

/-- Running MXFIND, MXSEP, MXTIME and MXDARK a second time after MXINIT v and a first run changes no cell of M or R (R189). -/
def Obligations.StructureIsIdempotent : Prop :=
  ∀ (v : Byte) (s : State), 1 ≤ v.toNat → v.toNat ≤ 5 →
    ∃ t u, execAll [.mxinit v, .mxfind, .mxsep, .mxtime, .mxdark] s = some t ∧
      execAll [.mxfind, .mxsep, .mxtime, .mxdark] t = some u ∧ u.planeM = t.planeM ∧ u.planeR = t.planeR

/-- Command order (R266): MXFIND, MXSEP and MXTIME commute with each other, and MXFMT and MSKAPPLY commute. -/
def Obligations.PatternsAndMasksCommute : Prop :=
  ∀ s : State, s.Inv → s.size ≠ 0#6 →
    (∃ t, execAll [.mxfind, .mxsep] s = some t ∧ execAll [.mxsep, .mxfind] s = some t) ∧
    (∃ t, execAll [.mxfind, .mxtime] s = some t ∧ execAll [.mxtime, .mxfind] s = some t) ∧
    (∃ t, execAll [.mxsep, .mxtime] s = some t ∧ execAll [.mxtime, .mxsep] s = some t) ∧
    (∀ a b m : Byte, a ≤ 3#8 → b ≤ 7#8 → m ≤ 7#8 →
      ∃ t, execAll [.mxfmt a b, .mskapply m] s = some t ∧ execAll [.mskapply m, .mxfmt a b] s = some t)

/-! ### Mask engine -/

/-- MSKAPPLY m inverts exactly the unreserved cells where the condition of R200 holds, and changes nothing else (R201, R204); it
reports IllegalOperand for m over 7, then NotInitialised with SIZE = 0. -/
def Obligations.MskapplyInvertsUnreservedCells : Prop :=
  CommandForm 0x50#8 true false (fun a _ => .mskapply a) ∧
  (∀ (a : Byte) (s : State), ¬a ≤ 7#8 → exec (.mskapply a) s = .next (reported s 4#4 (0#16 ++ a ++ 0x50#8))) ∧
  (∀ (a : Byte) (s : State), a ≤ 7#8 → s.size = 0#6 → exec (.mskapply a) s = .next (reported s 5#4 (0#16 ++ a ++ 0x50#8))) ∧
  ∀ (a : Byte) (s : State), a ≤ 7#8 → s.Inv → s.size ≠ 0#6 →
    ∃ t, exec (.mskapply a) s = .next t ∧ t = finished { s with planeM := t.planeM } ∧
      IsMasked s.planeR s.planeM s.size.toNat a.toNat t.planeM.get

/-- Applying the same mask twice restores the matrix (R201, R204). -/
def Obligations.MaskingTwiceRestoresTheMatrix : Prop :=
  ∀ (a : Byte) (s : State), a ≤ 7#8 → s.Inv → s.size ≠ 0#6 →
    execAll [.mskapply a, .mskapply a] s = some (finished s)

/-- PENALTY puts into RESULT the sum over all rows and columns of L − 2 for every maximal run of length L ≥ 5, and changes nothing
else (R202, R203, R206); with SIZE = 0 it reports NotInitialised. -/
def Obligations.PenaltyCountsMaximalRuns : Prop :=
  CommandForm 0x52#8 false false (fun _ _ => .penalty) ∧
  (∀ s : State, s.size = 0#6 → exec .penalty s = .next (reported s 5#4 0x52#32)) ∧
  ∀ s : State, s.Inv → s.size ≠ 0#6 →
    exec .penalty s = .next (finished { s with
      result := BitVec.ofNat 32 (gridPoints s.size.toNat (moduleAt s.planeM)) })

/-- MSKSCORE m puts the penalty of the masked copy into PENTAB[m] and RESULT; M, R and everything but the scratch plane stay
(R205); it reports IllegalOperand for m over 7, then NotInitialised with SIZE = 0. -/
def Obligations.MskscoreScoresTheMaskedCopy : Prop :=
  CommandForm 0x51#8 true false (fun a _ => .mskscore a) ∧
  (∀ (a : Byte) (s : State), ¬a ≤ 7#8 → exec (.mskscore a) s = .next (reported s 4#4 (0#16 ++ a ++ 0x51#8))) ∧
  (∀ (a : Byte) (s : State), a ≤ 7#8 → s.size = 0#6 → exec (.mskscore a) s = .next (reported s 5#4 (0#16 ++ a ++ 0x51#8))) ∧
  ∀ (a : Byte) (s : State), a ≤ 7#8 → s.Inv → s.size ≠ 0#6 →
    ∃ t p, exec (.mskscore a) s = .next t ∧ IsScore s a.toNat p ∧
      t = finished { s with result := BitVec.ofNat 32 p, pentab := t.pentab, planeS := t.planeS } ∧
      t.penaltyOf a.toNat = BitVec.ofNat 16 p ∧ ∀ m < 8, m ≠ a.toNat → t.penaltyOf m = s.penaltyOf m

/-- MSKSEL puts the eight scores into PENTAB and the first of the least into MASKID; M, R and everything but the scratch plane stay
(R207); with SIZE = 0 it reports NotInitialised. -/
def Obligations.MskselChoosesTheFirstMinimum : Prop :=
  CommandForm 0x53#8 false false (fun _ _ => .msksel) ∧
  (∀ s : State, s.size = 0#6 → exec .msksel s = .next (reported s 5#4 0x53#32)) ∧
  ∀ s : State, s.Inv → s.size ≠ 0#6 →
    ∃ t score, exec .msksel s = .next t ∧ (∀ m < 8, IsScore s m (score m)) ∧
      t = finished { s with pentab := t.pentab, maskid := t.maskid, planeS := t.planeS } ∧
      (∀ m < 8, t.penaltyOf m = BitVec.ofNat 16 (score m)) ∧ FirstMinimum score t.maskid.toNat

/-! ### Pipeline -/

/-- R220: NOP changes no register other than STATUS, in every state: DONE is set and BUSY cleared. -/
def Obligations.NopOnlyCompletes : Prop :=
  CommandForm 0x00#8 false false (fun _ _ => .nop) ∧ ∀ s : State, exec .nop s = .next (finished s)

/-- ENCODE completes on every accepted payload: VER, CAP, CWLEN, SIZE and BITCNT are those of version_for(LEN), CW holds the data
codewords and an error-correction part that makes a codeword, both format copies and FMT hold the final word of the chosen mask,
MASKID is the first least of PENTAB, and RESULT, LEN, PAYLOAD and every register it does not name stay (R221, R226). -/
def Obligations.EncodeBuildsTheSymbol : Prop :=
  CommandForm 0x60#8 true false (fun a _ => .encode a) ∧
  ∀ (a : Byte) (s : State) (p : List Byte) (v : Nat), a ≤ 3#8 → s.rom = GfRom.fixed → PayloadIs s p →
    IsVersionFor p.length v → Accepted s.cfg.overflow p.length (dOf v) →
    ∃ t ec, exec (.encode a) s = .next t ∧
      t = finished { s with
        ver := BitVec.ofNat 32 v
        cap := BitVec.ofNat 16 (nOf v * 256 + dOf v)
        cwlen := BitVec.ofNat 32 (dOf v + nOf v)
        size := BitVec.ofNat 6 (4 * v + 17)
        bitcnt := BitVec.ofNat 12 (8 * (dOf v + nOf v))
        fmt := formatOf a.toNat t.maskid.toNat
        mem := t.mem, planeM := t.planeM, planeR := t.planeR, planeS := t.planeS, pentab := t.pentab, maskid := t.maskid } ∧
      (∀ j < dOf v, t.mem.read (0x200 + j) = some (dataByte p j)) ∧
      ec.length = nOf v ∧ (∀ j < nOf v, t.mem.read (0x200 + dOf v + j) = ec[j]?) ∧
      (∀ i < nOf v, evalAt (alpha i) ((List.range (dOf v)).map (dataByte p) ++ ec) = 0#8) ∧
      (∀ a, (a < 0x200 ∨ 0x200 + dOf v + nOf v ≤ a) → (a < 0x300 ∨ 0x300 + nOf v < a) → t.mem.read a = s.mem.read a) ∧
      HoldsFormat s.cfg.bitOrder (4 * v + 17) t.planeM (formatOf a.toNat t.maskid.toNat) ∧
      FirstMinimum (fun m => (t.penaltyOf m).toNat) t.maskid.toNat

/-- ENCODE leaves the state that the sequence of the single commands leaves, apart from the scratch plane (R222). -/
def Obligations.EncodeEqualsTheCommandSequence : Prop :=
  ∀ (a : Byte) (s : State) (p : List Byte) (v : Nat), a ≤ 3#8 → PayloadIs s p → IsVersionFor p.length v →
    Accepted s.cfg.overflow p.length (dOf v) →
    ∃ t u, exec (.encode a) s = .next t ∧
      execAll [.verfor, .capof (BitVec.ofNat 8 v), .denc, .rsenc (BitVec.ofNat 8 (dOf v)) (BitVec.ofNat 8 (nOf v)),
        .mxinit (BitVec.ofNat 8 v), .mxfind, .mxsep, .mxtime, .mxdark, .mxfmt a 0#8, .mxdata, .msksel,
        .mskapply (t.maskid.setWidth 8), .mxfmt a (t.maskid.setWidth 8)] s = some u ∧
      { u with planeS := t.planeS } = t

/-- ENCODE is a function of LEN, PAYLOAD[0..LEN−1], the level and the two parameters: it reads no other register and no earlier
matrix, codeword or generator content (R224). -/
def Obligations.EncodeDependsOnlyOnPayloadAndLevel : Prop :=
  ∀ (a : Byte) (s s' t t' : State) (p : List Byte) (v : Nat), s.rom = s'.rom → s.cfg.overflow = s'.cfg.overflow →
    s.cfg.bitOrder = s'.cfg.bitOrder → PayloadIs s p → PayloadIs s' p → a ≤ 3#8 → IsVersionFor p.length v →
    Accepted s.cfg.overflow p.length (dOf v) → exec (.encode a) s = .next t → exec (.encode a) s' = .next t' →
    t.ver = t'.ver ∧ t.cap = t'.cap ∧ t.cwlen = t'.cwlen ∧ t.size = t'.size ∧ t.planeM = t'.planeM ∧ t.planeR = t'.planeR ∧
    t.fmt = t'.fmt ∧ t.pentab = t'.pentab ∧ t.maskid = t'.maskid ∧ t.bitcnt = t'.bitcnt ∧
    (∀ k < dOf v + nOf v, t.mem.read (0x200 + k) = t'.mem.read (0x200 + k)) ∧
    (∀ k ≤ nOf v, t.mem.read (0x300 + k) = t'.mem.read (0x300 + k))

/-! ### Host accesses, interrupt and reset -/

/-- While BUSY = 1 the Host may read STATUS and ID only (R67): a 32-bit read of ID returns 0x51520001 (R22), one of STATUS the flags with
BUSY = 1 in bit 0 (R24), each added to the model's record of the Host (log 4). Any other access is BusyAccess: that this name comes
before BadAccess, and that an 8-bit read at STATUS's offset is such an access, is the model's choice (log 9). -/
def Obligations.BusyAllowsOnlyStatusAndId : Prop :=
  ∀ s : State, s.pend.isSome = true →
    s.hostAccess (.read 0x000#13 .word) = .ok { s with readLog := 0x51520001#32 :: s.readLog } ∧
    s.hostAccess (.read 0x008#13 .word) = .ok { s with readLog :=
      (0#20 ++ s.status.errCode ++ 0#4 ++ BitVec.ofBool s.status.drop ++ BitVec.ofBool s.status.err ++
        BitVec.ofBool s.status.done ++ 1#1) :: s.readLog } ∧
    ∀ a : Access, ¬(a = .read 0x008#13 .word ∨ a = .read 0x000#13 .word) → s.hostAccess a = .error .busyAccess

/-- While BUSY = 0 an access that the window map does not allow is BadAccess, and one that it allows never is (R61 to R64, R66). -/
def Obligations.WindowMapDecidesBadAccess : Prop :=
  ∀ s : State, s.pend = none →
    (∀ (off : Offset) (n : Width),
      s.hostAccess (.read off n) = .error .badAccess ↔ ¬ReadAllowed s.size.toNat off.toNat n) ∧
    (∀ (off : Offset) (n : Width) (v : Word),
      s.hostAccess (.write off n v) = .error .badAccess ↔ ¬WriteAllowed s.size.toNat off.toNat n)

/-- A read changes nothing but the model's record of the Host, to which it adds the value it returns (R68; log 4); of a register it returns the register
with its reserved bits 0 (R22 to R37), of a byte the byte zero-extended, and an unwritten byte is ReadUnwritten (R46). -/
def Obligations.ReadsReturnTheLocation : Prop :=
  ∀ s : State, s.pend = none →
    s.hostAccess (.read 0x000#13 .word) = .ok { s with readLog := 0x51520001#32 :: s.readLog } ∧
    s.hostAccess (.read 0x010#13 .word) = .ok { s with readLog := s.result :: s.readLog } ∧
    s.hostAccess (.read 0x014#13 .word) = .ok { s with readLog := s.errinfo :: s.readLog } ∧
    s.hostAccess (.read 0x018#13 .word) = .ok { s with readLog := s.len :: s.readLog } ∧
    s.hostAccess (.read 0x01C#13 .word) = .ok { s with readLog := s.ver :: s.readLog } ∧
    s.hostAccess (.read 0x020#13 .word) = .ok { s with readLog := (0#16 ++ s.cap) :: s.readLog } ∧
    s.hostAccess (.read 0x024#13 .word) = .ok { s with readLog := s.cwlen :: s.readLog } ∧
    s.hostAccess (.read 0x028#13 .word) = .ok { s with readLog := (0#26 ++ s.size) :: s.readLog } ∧
    s.hostAccess (.read 0x02C#13 .word) = .ok { s with readLog := (0#17 ++ s.fmt) :: s.readLog } ∧
    s.hostAccess (.read 0x030#13 .word) = .ok { s with readLog := (0#29 ++ s.maskid) :: s.readLog } ∧
    s.hostAccess (.read 0x034#13 .word) = .ok { s with readLog := (0#20 ++ s.bitcnt) :: s.readLog } ∧
    (∀ m < 8, s.hostAccess (.read (BitVec.ofNat 13 (0x40 + 4 * m)) .word) =
      .ok { s with readLog := (0#16 ++ s.penaltyOf m) :: s.readLog }) ∧
    (∀ a, 0x100 ≤ a → a ≤ 0x320 →
      s.hostAccess (.read (BitVec.ofNat 13 a) .byte) =
        match s.mem.read a with
        | some b => .ok { s with readLog := (0#24 ++ b) :: s.readLog }
        | none => .error .readUnwritten)

/-- A read of STATUS returns BUSY in bit 0, DONE 1, ERR 2, DROP 3, ERRCODE 11:8 and 0 elsewhere, at any time, and adds it to the model's
record of the Host (log 4); a write clears each of DONE, ERR, DROP whose bit in the written value is 1 and changes nothing else
(R24, R235). -/
def Obligations.StatusReadsAndClearsByOne : Prop :=
  (∀ s : State, s.hostAccess (.read 0x008#13 .word) = .ok { s with readLog :=
    (0#20 ++ s.status.errCode ++ 0#4 ++ BitVec.ofBool s.status.drop ++ BitVec.ofBool s.status.err ++
      BitVec.ofBool s.status.done ++ BitVec.ofBool s.pend.isSome) :: s.readLog }) ∧
  (∀ (s : State) (v : Word), s.pend = none → s.hostAccess (.write 0x008#13 .word v) = .ok { s with status :=
    { done := s.status.done && !v.getLsbD 1
      err := s.status.err && !v.getLsbD 2
      drop := s.status.drop && !v.getLsbD 3
      errCode := s.status.errCode } })

/-- The writable registers: LEN, VER and CWLEN take all 32 bits, CTRL the bits 0 and 1; each write changes only its register, and CTRL
reads back with bits [31:2] equal to 0 (R23, R28, R29, R31). -/
def Obligations.WritableRegistersTakeTheValue : Prop :=
  ∀ (s : State) (v : Word), s.pend = none →
    s.hostAccess (.write 0x018#13 .word v) = .ok { s with len := v } ∧
    s.hostAccess (.write 0x01C#13 .word v) = .ok { s with ver := v } ∧
    s.hostAccess (.write 0x024#13 .word v) = .ok { s with cwlen := v } ∧
    ∃ t, s.hostAccess (.write 0x004#13 .word v) = .ok t ∧
      t = { s with ctrl := { ieDone := v.getLsbD 0, ieErr := v.getLsbD 1 } } ∧
      t.hostAccess (.read 0x004#13 .word) = .ok { t with readLog := (v &&& 3#32) :: t.readLog }

/-- A CMD write of w with BUSY = 0 and ERR = 0 makes w pending, which sets BUSY; with ERR = 1 it sets DROP and has no other effect;
with BUSY = 1 it is BusyAccess (R25, R234). What the first case writes to `left` and `issued` is no rule's but the model's own
latency bookkeeping (log 3). -/
def Obligations.CmdWriteIssuesOrDrops : Prop :=
  ∀ (s : State) (w : Word),
    (s.pend = none → s.status.err = false →
      s.hostAccess (.write 0x00C#13 .word w) =
        .ok { s with pend := some w, left := s.cfg.latency.getD s.issued 0, issued := s.issued + 1 }) ∧
    (s.pend = none → s.status.err = true →
      s.hostAccess (.write 0x00C#13 .word w) = .ok { s with status := { s.status with drop := true } }) ∧
    (s.pend.isSome = true → s.hostAccess (.write 0x00C#13 .word w) = .error .busyAccess)

/-- A write of a PAYLOAD or CW byte sets that byte to v[7:0], and every other byte and everything else stays (R63, R68). -/
def Obligations.BufferWritesChangeOneByte : Prop :=
  ∀ (s : State) (a : Nat) (v : Word), s.pend = none → 0x100 ≤ a → a ≤ 0x2FF →
    ∃ t, s.hostAccess (.write (BitVec.ofNat 13 a) .byte v) = .ok t ∧ t = { s with mem := t.mem } ∧
      t.mem.read a = some (v.extractLsb' 0 8) ∧ ∀ x, x ≠ a → t.mem.read x = s.mem.read x

/-- R64: the byte at 0x1000 + 64 r + c of the current matrix reads (R << 1) | M, and a write sets M to v[0] and R to v[1] of that cell,
every other cell and everything else staying; outside the current matrix, or with another width, the access is BadAccess. -/
def Obligations.MatWindowIsTheTwoPlanes : Prop :=
  (∀ (s : State) (off : Offset) (n : Width) (v : Word), s.pend = none → 0x1000 ≤ off.toNat → n ≠ .byte →
    s.hostAccess (.read off n) = .error .badAccess ∧ s.hostAccess (.write off n v) = .error .badAccess) ∧
  ∀ (s : State) (r c : Nat) (v : Word), s.pend = none → r < 64 → c < 64 →
    ((r < s.size.toNat ∧ c < s.size.toNat) →
      (∀ m q, s.planeM.get r c = some m → s.planeR.get r c = some q →
        s.hostAccess (.read (BitVec.ofNat 13 (0x1000 + 64 * r + c)) .byte) =
          .ok { s with readLog := (0#30 ++ BitVec.ofBool q ++ BitVec.ofBool m) :: s.readLog }) ∧
      ∃ t, s.hostAccess (.write (BitVec.ofNat 13 (0x1000 + 64 * r + c)) .byte v) = .ok t ∧
        t = { s with planeM := t.planeM, planeR := t.planeR } ∧
        t.planeM.get r c = some (v.getLsbD 0) ∧ t.planeR.get r c = some (v.getLsbD 1) ∧
        ∀ r' c', ¬(r' = r ∧ c' = c) →
          t.planeM.get r' c' = s.planeM.get r' c' ∧ t.planeR.get r' c' = s.planeR.get r' c') ∧
    (¬(r < s.size.toNat ∧ c < s.size.toNat) →
      s.hostAccess (.read (BitVec.ofNat 13 (0x1000 + 64 * r + c)) .byte) = .error .badAccess ∧
      s.hostAccess (.write (BitVec.ofNat 13 (0x1000 + 64 * r + c)) .byte v) = .error .badAccess)

/-- IRQ is (DONE ∧ IE_DONE) ∨ (ERR ∧ IE_ERR) in every state. After an Engine step it is 1 exactly when IE_DONE is 1, or IE_ERR is 1 and
ERR is 1. A CTRL write of v makes it what the flags already set and the enables v[0], v[1] give: it rises when an enable of a set
flag is written 1, falls when it is written 0. A STATUS write makes it fall with the flags it clears, and 0x0000000E leaves it 0
whatever CTRL enables (R47, R235, R236). -/
def Obligations.IrqFollowsDoneAndErr : Prop :=
  (∀ s : State, s.irq = true ↔
    (s.status.done = true ∧ s.ctrl.ieDone = true) ∨ (s.status.err = true ∧ s.ctrl.ieErr = true)) ∧
  (∀ (w : Word) (s t : State), engineStep w s = .next t →
    (t.irq = true ↔ s.ctrl.ieDone = true ∨ (s.ctrl.ieErr = true ∧ t.status.err = true))) ∧
  (∀ (s : State) (v : Word), s.pend = none → ∃ t, s.hostAccess (.write 0x004#13 .word v) = .ok t ∧
    t.irq = ((s.status.done && v.getLsbD 0) || (s.status.err && v.getLsbD 1))) ∧
  (∀ (s : State) (v : Word), s.pend = none → ∃ t, s.hostAccess (.write 0x008#13 .word v) = .ok t ∧
    t.irq = ((s.status.done && !v.getLsbD 1 && s.ctrl.ieDone) || (s.status.err && !v.getLsbD 2 && s.ctrl.ieErr))) ∧
  (∀ s t : State, s.hostAccess (.write 0x008#13 .word 0x0000000E#32) = .ok t → t.irq = false)

/-- The state after reset (R260): every register reads the listed value, nothing is pending, no byte and no cell is written, the tables
hold the powers of the generator and their logarithms (R261), IRQ is 0 (which R260 marks as derived from R236); a byte's read is
ReadUnwritten and every MAT access BadAccess. -/
def Obligations.ResetLeavesTheListedValues : Prop :=
  State.reset.readReg .id = some 0x51520001#32 ∧ State.reset.pend = none ∧ State.reset.irq = false ∧
  (∀ r ∈ [Reg.ctrl, .status, .result, .errinfo, .len, .ver, .cap, .cwlen, .fmt, .maskid, .bitcnt, .size],
    State.reset.readReg r = some 0#32) ∧
  (∀ m < 8, State.reset.readReg (.pentab m) = some 0#32) ∧
  (∀ a, State.reset.mem.read a = none) ∧
  (∀ r c, State.reset.planeM.get r c = none ∧ State.reset.planeR.get r c = none ∧ State.reset.planeS.get r c = none) ∧
  (∀ i < 255, State.reset.rom.expAt i = alpha i ∧ State.reset.rom.logAt (alpha i) = i) ∧
  State.reset.rom.expAt 255 = 1#8 ∧ State.reset.rom.logAt 0#8 = 0 ∧
  (∀ a, 0x100 ≤ a → a ≤ 0x320 → State.reset.hostAccess (.read (BitVec.ofNat 13 a) .byte) = .error .readUnwritten) ∧
  (∀ (off : Offset) (n : Width) (v : Word), 0x1000 ≤ off.toNat →
    State.reset.hostAccess (.read off n) = .error .badAccess ∧ State.reset.hostAccess (.write off n v) = .error .badAccess)

/-- A platform reset that comes before the Engine step discards the pending command: the whole state is the reset state under the
same parameters (R262; the rest of the events and the Host's record stay, log 14). -/
def Obligations.PlatformResetDiscardsThePendingCommand : Prop :=
  ∀ (s : State) (rest : List HostEvent), s.hostQ = .reset :: rest → (s.pend = none ∨ s.left ≠ 0) →
    step s = .next { State.resetWith s.cfg with hostQ := rest, readLog := s.readLog, issued := s.issued }

/-- With the Host in its `wait` loop a pending command reaches its Engine step after the polls that read BUSY = 1, and nothing else has
changed by then: the run of `left` + 1 steps is the outcome of the Engine step, which completes the command or stops with
ReadUnwritten (R99, R264). `left`, the number of those polls, is the model's own latency bookkeeping (log 3). -/
def Obligations.WaitLoopEndsInTheEngineStep : Prop :=
  ∀ (s : State) (w : Word) (rest : List HostEvent), s.pend = some w → s.hostQ = .wait :: rest →
    runSteps (s.left + 1) s = engineStep w { s with left := 0 }

/-! ### Invariants -/

/-- The state after reset satisfies the invariant, under any parameters. -/
def Obligations.ResetSatisfiesTheInvariants : Prop :=
  ∀ c : Config, (State.resetWith c).Inv ∧ (State.resetWith c).Ranges

/-- Every step, of the Engine, the Host or the platform, keeps the invariant: canonical storage within the buffers, the tables, a legal
SIZE with a written matrix, no command pending while ERR = 1. -/
def Obligations.EveryStepKeepsTheInvariant : Prop :=
  ∀ s t : State, s.Inv → step s = .next t → t.Inv

/-- Every step keeps ERRCODE, CAP, BITCNT and PENTAB within the ranges the spec gives them (R30, R35, R202, R231). -/
def Obligations.EveryStepKeepsTheRegisterRanges : Prop :=
  ∀ s t : State, s.Inv → s.Ranges → step s = .next t → t.Ranges

/-! ### The Host's turn -/

/-- On the Host's turn, that is with no command pending or with Host events still to come before the Engine step, a step makes the first
of the Host's coming events and takes it off the list: an access answers what its rule gives (R60 to R68), a `wait` with BUSY = 0 is
used up, a `wait` with BUSY = 1 stays and polls again (R99, R264); with nothing pending and no event left the block is idle (R21). The
list of events and the count `left` are the model's own (log 3, log 4). -/
def Obligations.StepMakesTheHostsEvent : Prop :=
  (∀ (s : State) (a : Access) (rest : List HostEvent), s.hostQ = .access a :: rest → (s.pend = none ∨ s.left ≠ 0) →
    (∀ t, State.hostAccess { s with hostQ := rest, left := s.left - 1 } a = .ok t → step s = .next t) ∧
    (∀ f, State.hostAccess { s with hostQ := rest, left := s.left - 1 } a = .error f → step s = .fault f)) ∧
  (∀ (s : State) (rest : List HostEvent), s.hostQ = .wait :: rest → s.pend = none →
    step s = .next { s with hostQ := rest, left := s.left - 1 }) ∧
  (∀ (s : State) (rest : List HostEvent), s.hostQ = .wait :: rest → s.pend.isSome = true → s.left ≠ 0 →
    step s = .next { s with left := s.left - 1 }) ∧
  ∀ s : State, s.hostQ = [] → s.pend = none → step s = .next s
end

