-- ==== Sys2Proof/Laws/Ops.lean ====
section
/-! SUPPORT. What the operations over the buffers and the planes do, said once: read over write, canonical form, shape; and what
a command's checks and its completion can answer. -/

namespace Sys2Proof.Machine

/-! ### Lists of optional values -/

theorem allPresent_eq_some {α : Type} {l : List (Option α)} {xs : List α} :
    allPresent l = some xs ↔ l = xs.map some := by
  induction l generalizing xs with
  | nil => cases xs <;> simp [allPresent]
  | cons x l ih =>
    cases x with
    | none => cases xs <;> simp [allPresent]
    | some a =>
      cases xs with
      | nil => simp [allPresent]
      | cons b xs => simp [allPresent, ih, and_comm]

theorem allPresent_isSome {α : Type} {l : List (Option α)} :
    (allPresent l).isSome = true ↔ ∀ x ∈ l, x.isSome = true := by
  induction l with
  | nil => simp [allPresent]
  | cons x l ih => cases x <;> simp [allPresent, ih]

/-! ### Buffer bytes -/

@[simp] theorem Memory.read_nil (a : Nat) : Memory.read [] a = none := rfl

@[simp] theorem Memory.read_write_same (m : Memory) (a : Nat) (b : Byte) : (m.write a b).read a = some b := by
  induction m with
  | nil => simp [Memory.write, Memory.read]
  | cons p m ih =>
    obtain ⟨k, x⟩ := p
    unfold Memory.write
    split
    · simp [Memory.read]
    · split
      · simp [Memory.read]
      · rename_i h
        simp [Memory.read, h, ih]

theorem Memory.read_write_other (m : Memory) (b : Byte) {a a' : Nat} (h : a' ≠ a) :
    (m.write a b).read a' = m.read a' := by
  induction m with
  | nil => simp [Memory.write, Memory.read, h.symm]
  | cons p m ih =>
    obtain ⟨k, x⟩ := p
    unfold Memory.write
    split
    · simp [Memory.read, h.symm]
    · split
      · rename_i hk
        subst hk
        simp [Memory.read, h.symm]
      · simp [Memory.read, ih]

theorem Memory.mem_write {m : Memory} {a : Nat} {b : Byte} {p : Host.Cell} (h : p ∈ m.write a b) :
    p = (a, b) ∨ p ∈ m := by
  induction m with
  | nil => simpa [Memory.write] using h
  | cons q m ih =>
    obtain ⟨k, x⟩ := q
    unfold Memory.write at h
    split at h
    · simpa using h
    · split at h
      · simp only [List.mem_cons] at h ⊢
        tauto
      · simp only [List.mem_cons] at h ⊢
        rcases h with h | h
        · exact .inr (.inl h)
        · exact (ih h).imp id .inr

/-- A write keeps the canonical form. -/
theorem Memory.write_wf {m : Memory} (h : m.wf) (a : Nat) (b : Byte) : (m.write a b).wf := by
  induction m with
  | nil => simp [Memory.write, Memory.wf]
  | cons q m ih =>
    obtain ⟨k, x⟩ := q
    simp only [Memory.wf, List.pairwise_cons] at h
    unfold Memory.write
    split
    · rename_i hk
      simp only [Memory.wf, List.pairwise_cons, List.mem_cons]
      refine ⟨?_, h⟩
      rintro p (rfl | hp)
      · exact hk
      · exact lt_trans hk (h.1 p hp)
    · split
      · rename_i hk
        subst hk
        exact List.pairwise_cons.2 h
      · refine List.pairwise_cons.2 ⟨fun p hp => ?_, ih h.2⟩
        rcases Memory.mem_write hp with rfl | hp
        · simp only; omega
        · exact h.1 p hp

theorem Memory.writeBytes_wf {m : Memory} (h : m.wf) (a : Nat) (bs : List Byte) : (m.writeBytes a bs).wf := by
  induction bs generalizing m a with
  | nil => exact h
  | cons b bs ih => exact ih (Memory.write_wf h a b) (a + 1)

theorem Memory.mem_writeBytes {m : Memory} {a : Nat} {bs : List Byte} {p : Host.Cell} (h : p ∈ m.writeBytes a bs) :
    p ∈ m ∨ (a ≤ p.1 ∧ p.1 < a + bs.length) := by
  induction bs generalizing m a with
  | nil => exact .inl h
  | cons b bs ih =>
    rcases ih h with h | h
    · rcases Memory.mem_write h with rfl | h
      · exact .inr (by simp)
      · exact .inl h
    · exact .inr (by simp only [List.length_cons]; omega)

/-- Read over a write of several bytes: the byte written there, or what was there before. -/
theorem Memory.read_writeBytes (m : Memory) (a : Nat) (bs : List Byte) (x : Nat) :
    (m.writeBytes a bs).read x = if a ≤ x ∧ x < a + bs.length then bs[x - a]? else m.read x := by
  induction bs generalizing m a with
  | nil => simp [Memory.writeBytes]
  | cons b bs ih =>
    rw [Memory.writeBytes, ih]
    by_cases hx : x = a
    · subst hx
      simp
    · by_cases h1 : a + 1 ≤ x ∧ x < a + 1 + bs.length
      · have h2 : a ≤ x ∧ x < a + (b :: bs).length := by simp only [List.length_cons]; omega
        rw [if_pos h1, if_pos h2, show x - a = (x - (a + 1)) + 1 by omega, List.getElem?_cons_succ]
      · have h2 : ¬(a ≤ x ∧ x < a + (b :: bs).length) := by simp only [List.length_cons]; omega
        rw [if_neg h1, if_neg h2, Memory.read_write_other _ _ hx]

theorem Memory.readBytes_eq_some {m : Memory} {a n : Nat} {bs : List Byte} :
    m.readBytes a n = some bs ↔ bs.length = n ∧ ∀ k < n, m.read (a + k) = bs[k]? := by
  rw [Memory.readBytes, allPresent_eq_some]
  constructor
  · intro h
    have hl : bs.length = n := by simpa using (congrArg List.length h).symm
    refine ⟨hl, fun k hk => ?_⟩
    have := congrArg (fun l => l[k]?) h
    simpa [hk, hl, List.getElem?_map] using this
  · rintro ⟨rfl, h⟩
    apply List.ext_getElem?
    intro k
    by_cases hk : k < bs.length
    · simp [hk, h k hk]
    · simp [hk]

/-! ### Planes -/

theorem cellAt_nil (c : Nat) : cellAt [] c = none := by cases c <;> rfl

theorem rowAt_nil (r : Nat) : rowAt [] r = [] := by cases r <;> rfl

theorem cellAt_setCellAt (row : List (Option Bool)) (c : Nat) (v : Bool) (c' : Nat) :
    cellAt (setCellAt row c v) c' = if c' = c then some v else cellAt row c' := by
  induction row generalizing c c' with
  | nil =>
    induction c generalizing c' with
    | zero => cases c' <;> simp [setCellAt, cellAt]
    | succ c ih => cases c' <;> simp [setCellAt, cellAt, ih]
  | cons x row ih => cases c <;> cases c' <;> simp [setCellAt, cellAt, ih]

/-- Read over a write of one cell. -/
theorem Plane.get_set (p : Plane) (r c : Nat) (v : Bool) (r' c' : Nat) :
    (p.set r c v).get r' c' = if r' = r ∧ c' = c then some v else p.get r' c' := by
  induction p generalizing r r' with
  | nil =>
    induction r generalizing r' with
    | zero =>
      cases r' <;> simp [Plane.set, Plane.get, rowAt, cellAt_setCellAt, cellAt_nil]
    | succ r ih =>
      cases r' with
      | zero => simp [Plane.set, Plane.get, rowAt, cellAt_nil]
      | succ r' => simpa [Plane.set, Plane.get, rowAt, rowAt_nil, cellAt_nil] using ih r'
  | cons row p ih =>
    cases r with
    | zero => cases r' <;> simp [Plane.set, Plane.get, rowAt, cellAt_setCellAt]
    | succ r =>
      cases r' with
      | zero => simp [Plane.set, Plane.get, rowAt]
      | succ r' => simpa [Plane.set, Plane.get, rowAt] using ih r r'

theorem setCellAt_length {row : List (Option Bool)} {c : Nat} (v : Bool) (h : c < row.length) :
    (setCellAt row c v).length = row.length := by
  induction row generalizing c with
  | nil => simp at h
  | cons x row ih => cases c <;> simp_all [setCellAt]

/-- A write inside the plane keeps its shape. -/
theorem Plane.set_wf {p : Plane} (h : p.wf) {r c : Nat} (v : Bool) (hr : r < maxSize) (hc : c < maxSize) :
    (p.set r c v).wf := by
  obtain ⟨hl, hrows⟩ := h
  rw [← hl] at hr
  suffices H : ∀ (n : Nat) (q : Plane), n < q.length → (∀ row ∈ q, row.length = maxSize) →
      (q.set n c v).length = q.length ∧ ∀ row ∈ q.set n c v, row.length = maxSize by
    obtain ⟨h1, h2⟩ := H r p hr hrows
    exact ⟨h1.trans hl, h2⟩
  intro n q
  induction q generalizing n with
  | nil => simp
  | cons row q ih =>
    intro hn hq
    have hrow := hq row (by simp)
    cases n with
    | zero =>
      refine ⟨by simp [Plane.set], fun x hx => ?_⟩
      simp only [Plane.set, List.mem_cons] at hx
      rcases hx with rfl | hx
      · rw [setCellAt_length v (hrow ▸ hc), hrow]
      · exact hq x (by simp [hx])
    | succ n =>
      obtain ⟨h1, h2⟩ := ih n (by simpa using hn) fun x hx => hq x (by simp [hx])
      refine ⟨by simp [Plane.set, h1], fun x hx => ?_⟩
      simp only [Plane.set, List.mem_cons] at hx
      rcases hx with rfl | hx
      · exact hrow
      · exact h2 x hx

@[simp] theorem Plane.setAll_nil (p : Plane) : p.setAll [] = p := rfl

@[simp] theorem Plane.setAll_cons (p : Plane) (w : CellWrite) (ws : List CellWrite) :
    p.setAll (w :: ws) = (p.set w.row w.col w.val).setAll ws := rfl

theorem Plane.setAll_append (p : Plane) (ws vs : List CellWrite) :
    p.setAll (ws ++ vs) = (p.setAll ws).setAll vs := by simp [Plane.setAll]

/-- Read over a list of writes: the last write of the cell, or what was there before. -/
theorem Plane.get_setAll (p : Plane) (ws : List CellWrite) (r c : Nat) :
    (p.setAll ws).get r c =
      ((ws.filter fun w => w.row == r && w.col == c).getLast?.map CellWrite.val).or (p.get r c) := by
  induction ws generalizing p with
  | nil => simp
  | cons w ws ih =>
    rw [Plane.setAll_cons, ih, Plane.get_set]
    by_cases h : w.row = r ∧ w.col = c
    · obtain ⟨rfl, rfl⟩ := h
      simp only [beq_self_eq_true, Bool.and_self, List.filter_cons_of_pos, and_self, if_true]
      cases hl : (List.filter (fun w' : CellWrite => w'.row == w.row && w'.col == w.col) ws) with
      | nil => simp
      | cons a l =>
        obtain ⟨x, hx⟩ : ∃ x, (a :: l).getLast? = some x := ⟨_, List.getLast?_eq_some_getLast (by simp)⟩
        have hw : (w :: a :: l).getLast? = some x := by rw [List.getLast?_cons_cons, hx]
        rw [hw, hx]
        rfl
    · have h1 : ¬(r = w.row ∧ c = w.col) := fun ⟨a, b⟩ => h ⟨a.symm, b.symm⟩
      rw [if_neg h1, List.filter_cons_of_neg (by simpa using h)]

/-- A cell that no write of the list names keeps its value. -/
theorem Plane.get_setAll_of_not_named {ws : List CellWrite} {r c : Nat}
    (h : ∀ w ∈ ws, ¬(w.row = r ∧ w.col = c)) (p : Plane) : (p.setAll ws).get r c = p.get r c := by
  rw [Plane.get_setAll, List.filter_eq_nil_iff.2 (by simpa using h)]
  simp

theorem Plane.setAll_wf {p : Plane} (h : p.wf) {ws : List CellWrite}
    (hw : ∀ w ∈ ws, w.row < maxSize ∧ w.col < maxSize) : (p.setAll ws).wf := by
  induction ws generalizing p with
  | nil => exact h
  | cons w ws ih =>
    have h0 := hw w (by simp)
    exact ih (Plane.set_wf h w.val h0.1 h0.2) fun x hx => hw x (by simp [hx])

theorem Plane.set_allWritten {p : Plane} (h : p.AllWritten) (r c : Nat) (v : Bool) : (p.set r c v).AllWritten := by
  intro r' hr c' hc
  rw [Plane.get_set]
  split
  · rfl
  · exact h r' hr c' hc

theorem Plane.setAll_allWritten {p : Plane} (h : p.AllWritten) (ws : List CellWrite) : (p.setAll ws).AllWritten := by
  induction ws generalizing p with
  | nil => exact h
  | cons w ws ih => exact ih (Plane.set_allWritten h w.row w.col w.val)

theorem cellAt_eq_getElem (row : List (Option Bool)) (c : Nat) : cellAt row c = row[c]?.join := by
  induction row generalizing c with
  | nil => simp [cellAt_nil]
  | cons x row ih => cases c <;> simp [cellAt, ih]

theorem rowAt_eq_getElem (p : Plane) (r : Nat) : rowAt p r = p[r]?.getD [] := by
  induction p generalizing r with
  | nil => simp [rowAt_nil]
  | cons x p ih => cases r <;> simp [rowAt, ih]

/-- The cells of a built plane. -/
theorem Plane.get_build (f : Nat → Nat → Option Bool) (r c : Nat) :
    (Plane.build f).get r c = if r < maxSize ∧ c < maxSize then f r c else none := by
  rw [Plane.get, cellAt_eq_getElem, rowAt_eq_getElem, Plane.build]
  by_cases hr : r < maxSize
  · by_cases hc : c < maxSize <;> simp [hr, hc]
  · simp [hr]

theorem Plane.build_wf (f : Nat → Nat → Option Bool) : (Plane.build f).wf := by
  refine ⟨by simp [Plane.build], fun row h => ?_⟩
  simp only [Plane.build, List.mem_map] at h
  obtain ⟨r, -, rfl⟩ := h
  simp

/-- Every cell of a filled plane holds the value. -/
theorem Plane.get_fill (v : Bool) (r c : Nat) :
    (Plane.fill v).get r c = if r < maxSize ∧ c < maxSize then some v else none := by
  rw [Plane.get, cellAt_eq_getElem, rowAt_eq_getElem, Plane.fill]
  by_cases hr : r < maxSize
  · by_cases hc : c < maxSize <;> simp [hr, hc]
  · simp [hr]

theorem Plane.fill_wf (v : Bool) : (Plane.fill v).wf := by
  refine ⟨by simp [Plane.fill], fun row h => ?_⟩
  simp only [Plane.fill, List.mem_replicate] at h
  simp [h.2]

theorem Plane.fill_allWritten (v : Bool) : (Plane.fill v).AllWritten := by
  intro r hr c hc
  simp [Plane.get_fill, hr, hc]

/-- No cell of an unwritten plane has a value. -/
theorem Plane.get_unwritten (r c : Nat) : Plane.unwritten.get r c = none := by
  rw [Plane.get, cellAt_eq_getElem, rowAt_eq_getElem, Plane.unwritten]
  by_cases hr : r < maxSize
  · by_cases hc : c < maxSize <;> simp [hr, hc]
  · simp [hr]

theorem Plane.unwritten_wf : Plane.unwritten.wf := by
  refine ⟨by simp [Plane.unwritten], fun row h => ?_⟩
  simp only [Plane.unwritten, List.mem_replicate] at h
  simp [h.2]

/-! ### A command's checks and its completion -/

/-- The completion answers a next state in two ways only: the command's writes and DONE, or a reported error of its word. -/
theorem finish_next {i : Instr} {s t : State} {r : Result} :
    finish i s r = .next t ↔
      (∃ u, r = .ok u ∧ t = u.complete) ∨ (∃ c, r = .error (.err c) ∧ t = s.reportError c (encode i)) := by
  rcases r with (c | f) | u <;> simp [finish, eq_comm]

/-- The completion answers a model fault only when the command's rule does. -/
theorem finish_fault {i : Instr} {s : State} {r : Result} {f : Fault} :
    finish i s r = .fault f ↔ r = .error (.fault f) := by
  rcases r with (c | f') | u <;> simp [finish]

theorem finish_not_refused (i : Instr) (s : State) (r : Result) (q : Refusal) : finish i s r ≠ .refused q := by
  rcases r with (c | f') | u <;> simp [finish]

theorem needOperand_ok {b : Bool} {k : Result} {u : State} : needOperand b k = .ok u ↔ b = true ∧ k = .ok u := by
  cases b <;> simp [needOperand]

theorem needMatrix_ok {s u : State} {k : Nat → Result} :
    needMatrix s k = .ok u ↔ s.size ≠ 0#6 ∧ k s.size.toNat = .ok u := by
  unfold needMatrix
  split <;> simp_all

theorem needCapacity_ok {p : OverflowPolicy} {len d : Nat} {k : Result} {u : State} :
    needCapacity p len d k = .ok u ↔ len ≤ 255 ∧ (len + 2 ≤ d ∨ p = .truncate) ∧ k = .ok u := by
  unfold needCapacity
  split
  · simp; omega
  · split
    · rename_i h1 h2
      obtain ⟨h2, rfl⟩ := h2
      simp; omega
    · rename_i h1 h2
      cases p <;> simp_all

theorem whenWritten_ok {α : Type} {x : Option α} {k : α → Result} {u : State} :
    whenWritten x k = .ok u ↔ ∃ v, x = some v ∧ k v = .ok u := by
  cases x <;> simp [whenWritten]

end Sys2Proof.Machine
end

