-- ==== Sys2Proof/Laws/Commands.lean ====
section
/-! SUPPORT. What a command, an Engine step, a Host access and a step of the machine can answer, said once: later proofs cite these
and do not unfold the meanings. -/

namespace Sys2Proof.Machine

/-! ### Commands -/

/-- The rule of a command, before its completion (R232). -/
def effect : Instr → State → Result
  | .nop => runNop
  | .gfmul a b => runGfmul a b
  | .gfdiv a b => runGfdiv a b
  | .fmtbits a b => runFmtbits a b
  | .verfor => runVerfor
  | .capof a => runCapof a
  | .denc => runDenc
  | .rsgen a => runRsgen a
  | .rsenc a b => runRsenc a b
  | .mxinit a => runMxinit a
  | .mxfind => runMxfind
  | .mxsep => runMxsep
  | .mxtime => runMxtime
  | .mxdark => runMxdark
  | .mxfmt a b => runMxfmt a b
  | .mxdata => runMxdata
  | .mskapply a => runMskapply a
  | .mskscore a => runMskscore a
  | .penalty => runPenaltyCmd
  | .msksel => runMsksel
  | .encode a => runEncode a

/-- Every command is its rule followed by the shared completion. -/
theorem exec_eq_finish (i : Instr) (s : State) : exec i s = finish i s (effect i s) := by cases i <;> rfl

/-- A command answers a next state in two ways only. -/
theorem exec_next {i : Instr} {s t : State} :
    exec i s = .next t ↔
      (∃ u, effect i s = .ok u ∧ t = u.complete) ∨
        (∃ c, effect i s = .error (.err c) ∧ t = s.reportError c (encode i)) := by
  rw [exec_eq_finish, finish_next]

theorem exec_fault {i : Instr} {s : State} {f : Fault} :
    exec i s = .fault f ↔ effect i s = .error (.fault f) := by
  rw [exec_eq_finish, finish_fault]

/-- No command of this model is refused. -/
theorem exec_not_refused (i : Instr) (s : State) (q : Refusal) : exec i s ≠ .refused q := by
  rw [exec_eq_finish]
  exact finish_not_refused i s _ q

theorem result_ok {u v : State} : (Except.ok v : Result) = .ok u ↔ u = v :=
  ⟨fun h => (Except.ok.inj h).symm, fun h => h ▸ rfl⟩

theorem runNop_ok {s u : State} : runNop s = .ok u ↔ u = s := result_ok

theorem runGfmul_ok {a b : Byte} {s u : State} :
    runGfmul a b s = .ok u ↔ u = { s with result := (s.rom.mul a b).setWidth 32 } := by
  simp only [runGfmul, result_ok]

theorem runGfdiv_ok {a b : Byte} {s u : State} :
    runGfdiv a b s = .ok u ↔ ∃ q, s.rom.div a b = some q ∧ u = { s with result := q.setWidth 32 } := by
  unfold runGfdiv
  cases s.rom.div a b <;> simp [eq_comm]

/-- GFDIV reports DomainError exactly for the divisor 0. -/
theorem div_eq_none {t : GfRom} {a b : Byte} : t.div a b = none ↔ b = 0#8 := by
  unfold GfRom.div
  split
  · simp_all
  · split <;> simp_all

theorem runFmtbits_ok {a b : Byte} {s u : State} :
    runFmtbits a b s = .ok u ↔
      (levelInRange a && maskInRange b) = true ∧ u = { s with result := (fmtWord a.toNat b.toNat).setWidth 32 } := by
  simp only [runFmtbits, needOperand_ok, result_ok]

theorem runVerfor_ok {s u : State} :
    runVerfor s = .ok u ↔ u = { s with ver := BitVec.ofNat 32 (versionFor s.len.toNat) } := by
  simp only [runVerfor, result_ok]

theorem runCapof_ok {a : Byte} {s u : State} :
    runCapof a s = .ok u ↔ versionInRange a.toNat = true ∧ u = { s with cap := capWord a.toNat } := by
  simp only [runCapof, needOperand_ok, result_ok]

theorem runDenc_ok {s u : State} :
    runDenc s = .ok u ↔ versionInRange s.ver.toNat = true ∧ s.len.toNat ≤ 255 ∧
      (s.len.toNat + 2 ≤ (capacityOf s.ver.toNat).1 ∨ s.cfg.overflow = .truncate) ∧
      ∃ p, s.payloadBytes = some p ∧ u = s.putData (capacityOf s.ver.toNat).1 p := by
  simp only [runDenc, needOperand_ok, needCapacity_ok, whenWritten_ok, result_ok]

theorem runRsgen_ok {a : Byte} {s u : State} :
    runRsgen a s = .ok u ↔ degreeInRange a = true ∧ u = s.putGen a.toNat := by
  simp only [runRsgen, needOperand_ok, result_ok]

theorem runRsenc_ok {a b : Byte} {s u : State} :
    runRsenc a b s = .ok u ↔ streamInRange a b = true ∧
      ∃ data, s.mem.readBytes cwBase a.toNat = some data ∧ u = s.putEc a.toNat b.toNat data := by
  simp only [runRsenc, needOperand_ok, whenWritten_ok, result_ok]

theorem runMxinit_ok {a : Byte} {s u : State} :
    runMxinit a s = .ok u ↔ versionInRange a.toNat = true ∧ u = s.initMatrix a.toNat := by
  simp only [runMxinit, needOperand_ok, result_ok]

theorem runMxfind_ok {s u : State} : runMxfind s = .ok u ↔ s.size ≠ 0#6 ∧ u = s.placeFinders := by
  simp only [runMxfind, needMatrix_ok, result_ok]

theorem runMxsep_ok {s u : State} : runMxsep s = .ok u ↔ s.size ≠ 0#6 ∧ u = s.placeSeparators := by
  simp only [runMxsep, needMatrix_ok, result_ok]

theorem runMxtime_ok {s u : State} : runMxtime s = .ok u ↔ s.size ≠ 0#6 ∧ u = s.placeTiming := by
  simp only [runMxtime, needMatrix_ok, result_ok]

theorem runMxdark_ok {s u : State} : runMxdark s = .ok u ↔ s.size ≠ 0#6 ∧ u = s.placeDark := by
  simp only [runMxdark, needMatrix_ok, result_ok]

theorem runMxfmt_ok {a b : Byte} {s u : State} :
    runMxfmt a b s = .ok u ↔
      (levelInRange a && maskInRange b) = true ∧ s.size ≠ 0#6 ∧ u = s.placeFormat a.toNat b.toNat := by
  rw [runMxfmt, needOperand_ok, needMatrix_ok]
  constructor
  · rintro ⟨h1, h2, h3⟩
    exact ⟨h1, h2, (Except.ok.inj h3).symm⟩
  · rintro ⟨h1, h2, rfl⟩
    exact ⟨h1, h2, rfl⟩

theorem runMxdata_ok {s u : State} :
    runMxdata s = .ok u ↔ cwlenInRange s.cwlen.toNat = true ∧ s.size ≠ 0#6 ∧
      ∃ stream, s.mem.readBytes cwBase s.cwlen.toNat = some stream ∧ s.placeData stream = some u := by
  simp [runMxdata, needOperand_ok, needMatrix_ok, whenWritten_ok]

theorem runMskapply_ok {a : Byte} {s u : State} :
    runMskapply a s = .ok u ↔ maskInRange a = true ∧ s.size ≠ 0#6 ∧ s.maskMatrix a.toNat = some u := by
  simp [runMskapply, needOperand_ok, needMatrix_ok, whenWritten_ok]

theorem runMskscore_ok {a : Byte} {s u : State} :
    runMskscore a s = .ok u ↔ maskInRange a = true ∧ s.size ≠ 0#6 ∧
      ∃ res, s.scoreMask a.toNat = some res ∧ u = s.putScore a.toNat res := by
  rw [runMskscore, needOperand_ok, needMatrix_ok, whenWritten_ok]
  constructor
  · rintro ⟨h1, h2, res, h3, h4⟩
    exact ⟨h1, h2, res, h3, (Except.ok.inj h4).symm⟩
  · rintro ⟨h1, h2, res, h3, rfl⟩
    exact ⟨h1, h2, res, h3, rfl⟩

theorem runPenaltyCmd_ok {s u : State} :
    runPenaltyCmd s = .ok u ↔ s.size ≠ 0#6 ∧
      ∃ p, s.planeM.penalty s.size.toNat = some p ∧ u = { s with result := BitVec.ofNat 32 p } := by
  simp only [runPenaltyCmd, needMatrix_ok, whenWritten_ok, result_ok]

theorem runMsksel_ok {s u : State} : runMsksel s = .ok u ↔ s.size ≠ 0#6 ∧ s.selectMask = some u := by
  simp [runMsksel, needMatrix_ok, whenWritten_ok]

theorem runEncode_ok {a : Byte} {s u : State} :
    runEncode a s = .ok u ↔ levelInRange a = true ∧ s.len.toNat ≤ 255 ∧
      (s.len.toNat + 2 ≤ (capacityOf (versionFor s.len.toNat)).1 ∨ s.cfg.overflow = .truncate) ∧
      ∃ p, s.payloadBytes = some p ∧
        (s.buildSymbol a.toNat (versionFor s.len.toNat) p).finishSymbol a.toNat
          (s.symbolStream (versionFor s.len.toNat) p) = some u := by
  simp [runEncode, needOperand_ok, needCapacity_ok, whenWritten_ok]

/-! ### The Engine step -/

/-- The Engine step answers a next state in two ways: the command its word decodes to, or IllegalCommand. -/
theorem engineStep_next {w : Word} {s t : State} :
    engineStep w s = .next t ↔
      (∃ i, decode w = .ok i ∧ exec i s = .next t) ∨
        (∃ e, decode w = .error e ∧ t = s.reportError .illcmd w) := by
  unfold engineStep
  cases decode w <;> simp [eq_comm]

/-! ### Host accesses -/

/-- A Host read that is answered adds one value to the Host's record and changes nothing else (R68). -/
theorem hostAccess_read_ok {s t : State} {off : Offset} {n : Width} :
    s.hostAccess (.read off n) = .ok t ↔
      (s.busy = true → allowedWhileBusy (.read off n) = true) ∧
        ∃ q v, placeAt off.toNat n = some q ∧ s.readPlace q = .ok v ∧ t = { s with readLog := v :: s.readLog } := by
  unfold State.hostAccess
  by_cases hb : (s.busy && !allowedWhileBusy (.read off n)) = true
  · rw [if_pos hb]
    simp only [Bool.and_eq_true, Bool.not_eq_true'] at hb
    simp [hb.1, hb.2]
  · rw [if_neg hb]
    have h1 : s.busy = true → allowedWhileBusy (.read off n) = true := by
      intro h
      simpa [h] using hb
    cases hp : placeAt off.toNat n with
    | none => simp [hp]
    | some q =>
      cases hr : s.readPlace q with
      | error f => simp [hp, hr, Except.map]
      | ok v =>
        simp only [hp, hr, Except.map]
        constructor
        · intro h
          exact ⟨h1, q, v, rfl, hr, (Except.ok.inj h).symm⟩
        · rintro ⟨-, q', v', hq, hv, rfl⟩
          rw [← Option.some.inj hq, hr] at hv
          rw [Except.ok.inj hv]

/-- A Host write that is answered happens while BUSY = 0 and is the write of one place (R67, R68). -/
theorem hostAccess_write_ok {s t : State} {off : Offset} {n : Width} {v : Word} :
    s.hostAccess (.write off n v) = .ok t ↔
      s.pend = none ∧ ∃ q, placeAt off.toNat n = some q ∧ s.writePlace v q = .ok t := by
  unfold State.hostAccess State.busy
  cases hp : s.pend with
  | some w => simp [allowedWhileBusy]
  | none => cases hq : placeAt off.toNat n <;> simp [hq]

/-! ### One step of the machine -/

/-- A step answers a next state in three ways: the Engine step, one Host event, or an idle block that stays as it is. -/
theorem step_next {s t : State} :
    step s = .next t ↔
      (∃ w, s.turn = .engine w ∧ engineStep w s = .next t) ∨
        (∃ e rest, s.turn = .host e rest ∧ hostStep e rest s = .next t) ∨ (s.turn = .idle ∧ t = s) := by
  unfold step
  cases s.turn <;> simp [eq_comm]

theorem next_inj {s t : State} : (Host.Outcome.next s : Host.Outcome State Fault Refusal) = .next t ↔ t = s :=
  ⟨fun h => (Host.Outcome.next.inj h).symm, fun h => h ▸ rfl⟩

theorem turn_engine {s : State} {w : Word} :
    s.turn = .engine w ↔ s.pend = some w ∧ (s.hostQ = [] ∨ s.left = 0) := by
  unfold State.turn
  cases s.pend <;> cases s.hostQ <;> simp
  split <;> simp_all

theorem turn_host {s : State} {e : HostEvent} {rest : List HostEvent} :
    s.turn = .host e rest ↔ s.hostQ = e :: rest ∧ (s.pend = none ∨ s.left ≠ 0) := by
  unfold State.turn
  cases s.pend <;> cases s.hostQ <;> simp
  split <;> simp_all

theorem turn_idle {s : State} : s.turn = .idle ↔ s.pend = none ∧ s.hostQ = [] := by
  unfold State.turn
  cases s.pend <;> cases s.hostQ <;> simp
  split <;> simp

/-- A Host event answers a next state in three ways: an access that is answered, a poll of the `wait` loop, a platform reset. -/
theorem hostStep_next {e : HostEvent} {rest : List HostEvent} {s t : State} :
    hostStep e rest s = .next t ↔
      (∃ a, e = .access a ∧ (s.takeEvent rest).hostAccess a = .ok t) ∨
        (e = .wait ∧ t = if s.busy then s.takeEvent (.wait :: rest) else s.takeEvent rest) ∨
          (e = .reset ∧ t = (s.takeEvent rest).platformReset) := by
  cases e with
  | access a =>
    simp only [hostStep]
    cases h : (s.takeEvent rest).hostAccess a <;> simp [h]
  | wait =>
    simp only [hostStep, next_inj]
    simp
  | reset =>
    simp only [hostStep, next_inj]
    simp

end Sys2Proof.Machine
end

