-- ==== Sys2Proof/Laws/Decode.lean ====
section
/-! SUPPORT. The command word by its fields: the fields of an assembled word, equality of words field by field, and what each of
the three masks of R100 leaves. -/

namespace Sys2Proof

/-- The bits of an assembled word (R98). -/
theorem assemble_getLsbD (opc a b : Byte) (i : Nat) :
    (assemble opc a b).getLsbD i =
      if i < 8 then opc.getLsbD i else if i < 16 then a.getLsbD (i - 8) else if i < 24 then b.getLsbD (i - 16) else false := by
  change BitVec.getLsbD (w := 8 + 8 + 8 + 8) (0#8 ++ b ++ a ++ opc) i = _
  rw [BitVec.getLsbD_append, BitVec.getLsbD_append, BitVec.getLsbD_append]
  by_cases h8 : i < 8
  · simp [h8]
  · by_cases h16 : i < 16
    · simp [h8, h16, show i - 8 < 8 by omega]
    · by_cases h24 : i < 24
      · simp [h8, h16, h24, show ¬(i - 8 < 8) by omega, show i - 16 < 8 by omega, show i - 8 - 8 = i - 16 by omega]
      · simp [h8, h16, h24, show ¬(i - 8 < 8) by omega, show ¬(i - 8 - 8 < 8) by omega]

@[simp] theorem fieldOpc_assemble (opc a b : Byte) : fieldOpc (assemble opc a b) = opc := by
  apply BitVec.eq_of_getLsbD_eq
  intro i hi
  simp [fieldOpc, assemble_getLsbD, hi]

@[simp] theorem fieldA_assemble (opc a b : Byte) : fieldA (assemble opc a b) = a := by
  apply BitVec.eq_of_getLsbD_eq
  intro i hi
  simp [fieldA, assemble_getLsbD, hi, show 8 + i < 16 by omega]

@[simp] theorem fieldB_assemble (opc a b : Byte) : fieldB (assemble opc a b) = b := by
  apply BitVec.eq_of_getLsbD_eq
  intro i hi
  simp [fieldB, assemble_getLsbD, hi, show ¬(16 + i < 8) by omega, show ¬(16 + i < 16) by omega,
    show 16 + i < 24 by omega]

@[simp] theorem fieldC_assemble (opc a b : Byte) : fieldC (assemble opc a b) = 0#8 := by
  apply BitVec.eq_of_getLsbD_eq
  intro i hi
  simp [fieldC, assemble_getLsbD, show ¬(24 + i < 8) by omega, show ¬(24 + i < 16) by omega,
    show ¬(24 + i < 24) by omega]

/-- The bits of a word by its four fields. -/
theorem getLsbD_fields (w : Word) (i : Nat) :
    w.getLsbD i = if i < 8 then (fieldOpc w).getLsbD i else if i < 16 then (fieldA w).getLsbD (i - 8)
      else if i < 24 then (fieldB w).getLsbD (i - 16) else (fieldC w).getLsbD (i - 24) := by
  unfold fieldOpc fieldA fieldB fieldC
  simp only [BitVec.getLsbD_extractLsb']
  by_cases h8 : i < 8
  · simp [h8]
  · by_cases h16 : i < 16
    · simp [h8, h16, show i - 8 < 8 by omega, show 8 + (i - 8) = i by omega]
    · by_cases h24 : i < 24
      · simp [h8, h16, h24, show i - 16 < 8 by omega, show 16 + (i - 16) = i by omega]
      · by_cases h32 : i < 32
        · simp [h8, h16, h24, show i - 24 < 8 by omega, show 24 + (i - 24) = i by omega]
        · simp [h8, h16, h24, show ¬(i - 24 < 8) by omega, BitVec.getLsbD_of_ge w i (by omega)]

/-- Two words with the same four fields are the same word. -/
theorem word_ext {w v : Word} (ho : fieldOpc w = fieldOpc v) (ha : fieldA w = fieldA v) (hb : fieldB w = fieldB v)
    (hc : fieldC w = fieldC v) : w = v := by
  apply BitVec.eq_of_getLsbD_eq
  intro i _
  rw [getLsbD_fields w, getLsbD_fields v, ho, ha, hb, hc]

theorem fieldOpc_and (w v : Word) : fieldOpc (w &&& v) = fieldOpc w &&& fieldOpc v := BitVec.extractLsb'_and

theorem fieldA_and (w v : Word) : fieldA (w &&& v) = fieldA w &&& fieldA v := BitVec.extractLsb'_and

theorem fieldB_and (w v : Word) : fieldB (w &&& v) = fieldB w &&& fieldB v := BitVec.extractLsb'_and

theorem fieldC_and (w v : Word) : fieldC (w &&& v) = fieldC w &&& fieldC v := BitVec.extractLsb'_and

/-- Equality of words, field by field. -/
theorem word_eq_iff {w v : Word} :
    w = v ↔ fieldOpc w = fieldOpc v ∧ fieldA w = fieldA v ∧ fieldB w = fieldB v ∧ fieldC w = fieldC v :=
  ⟨fun h => by simp [h], fun ⟨ho, ha, hb, hc⟩ => word_ext ho ha hb hc⟩

/-- CMD-N: the opcode, every other field 0 (R93, R100). -/
theorem masked_maskN {w : Word} {opc : Byte} :
    w &&& maskN = assemble opc 0#8 0#8 ↔ fieldOpc w = opc ∧ fieldA w = 0#8 ∧ fieldB w = 0#8 ∧ fieldC w = 0#8 := by
  rw [word_eq_iff, fieldOpc_and, fieldA_and, fieldB_and, fieldC_and, show fieldOpc maskN = 0xFF#8 from rfl,
    show fieldA maskN = 0xFF#8 from rfl, show fieldB maskN = 0xFF#8 from rfl, show fieldC maskN = 0xFF#8 from rfl]
  have h : ∀ x : Byte, x &&& 0xFF#8 = x := fun x => BitVec.and_allOnes
  simp [h]

/-- CMD-A: the opcode, B and C 0, A free (R93, R100). -/

theorem masked_maskA {w : Word} {opc : Byte} :
    w &&& maskA = assemble opc 0#8 0#8 ↔ fieldOpc w = opc ∧ fieldB w = 0#8 ∧ fieldC w = 0#8 := by
  rw [word_eq_iff, fieldOpc_and, fieldA_and, fieldB_and, fieldC_and, show fieldOpc maskA = 0xFF#8 from rfl,
    show fieldA maskA = 0#8 from rfl, show fieldB maskA = 0xFF#8 from rfl, show fieldC maskA = 0xFF#8 from rfl]
  have h : ∀ x : Byte, x &&& 0xFF#8 = x := fun x => BitVec.and_allOnes
  simp [h]

/-- CMD-AB: the opcode, C 0, A and B free (R93, R100). -/
theorem masked_maskAB {w : Word} {opc : Byte} :
    w &&& maskAB = assemble opc 0#8 0#8 ↔ fieldOpc w = opc ∧ fieldC w = 0#8 := by
  rw [word_eq_iff, fieldOpc_and, fieldA_and, fieldB_and, fieldC_and, show fieldOpc maskAB = 0xFF#8 from rfl,
    show fieldA maskAB = 0#8 from rfl, show fieldB maskAB = 0#8 from rfl, show fieldC maskAB = 0xFF#8 from rfl]
  have h : ∀ x : Byte, x &&& 0xFF#8 = x := fun x => BitVec.and_allOnes
  simp [h]

end Sys2Proof
end

