-- ==== Sys2Proof/Laws/PerInstr.lean ====
section
/-! SUPPORT. One family of facts about every instruction as syntax: its word has the form of its row of spec/opcode_table.json. -/

namespace Sys2Proof.Laws.TableRow

/-- Mask and match of the instruction's row in spec/opcode_table.json (R93, R100). -/
def row : Instr → Word × Word
  | .nop => (0xFFFFFFFF#32, 0x00000000#32)
  | .gfmul _ _ => (0xFF0000FF#32, 0x00000001#32)
  | .gfdiv _ _ => (0xFF0000FF#32, 0x00000002#32)
  | .fmtbits _ _ => (0xFF0000FF#32, 0x00000008#32)
  | .verfor => (0xFFFFFFFF#32, 0x00000010#32)
  | .capof _ => (0xFFFF00FF#32, 0x00000011#32)
  | .denc => (0xFFFFFFFF#32, 0x00000020#32)
  | .rsgen _ => (0xFFFF00FF#32, 0x00000030#32)
  | .rsenc _ _ => (0xFF0000FF#32, 0x00000031#32)
  | .mxinit _ => (0xFFFF00FF#32, 0x00000040#32)
  | .mxfind => (0xFFFFFFFF#32, 0x00000041#32)
  | .mxsep => (0xFFFFFFFF#32, 0x00000042#32)
  | .mxtime => (0xFFFFFFFF#32, 0x00000043#32)
  | .mxdark => (0xFFFFFFFF#32, 0x00000044#32)
  | .mxfmt _ _ => (0xFF0000FF#32, 0x00000045#32)
  | .mxdata => (0xFFFFFFFF#32, 0x00000046#32)
  | .mskapply _ => (0xFFFF00FF#32, 0x00000050#32)
  | .mskscore _ => (0xFFFF00FF#32, 0x00000051#32)
  | .penalty => (0xFFFFFFFF#32, 0x00000052#32)
  | .msksel => (0xFFFFFFFF#32, 0x00000053#32)
  | .encode _ => (0xFFFF00FF#32, 0x00000060#32)

/-- The word of the instruction is legal in form by its own row, and its fields A and B are its operands (R90, R98). -/
def Statement (i : Instr) : Prop :=
  encode i &&& (row i).1 = (row i).2 ∧
    fieldA (encode i) = i.operands.getD 0 0#8 ∧ fieldB (encode i) = i.operands.getD 1 0#8

/-- A word of format CMD-N matches its row. -/
theorem formN (opc : Byte) : assemble opc 0#8 0#8 &&& maskN = assemble opc 0#8 0#8 := by simp [masked_maskN]

/-- A word of format CMD-A matches its row. -/
theorem formA (opc a : Byte) : assemble opc a 0#8 &&& maskA = assemble opc 0#8 0#8 := by simp [masked_maskA]

/-- A word of format CMD-AB matches its row. -/
theorem formAB (opc a b : Byte) : assemble opc a b &&& maskAB = assemble opc 0#8 0#8 := by simp [masked_maskAB]

theorem nop : Statement .nop := ⟨formN 0x00#8, fieldA_assemble _ _ _, fieldB_assemble _ _ _⟩
theorem gfmul (a b : Byte) : Statement (.gfmul a b) := ⟨formAB 0x01#8 a b, fieldA_assemble _ _ _, fieldB_assemble _ _ _⟩
theorem gfdiv (a b : Byte) : Statement (.gfdiv a b) := ⟨formAB 0x02#8 a b, fieldA_assemble _ _ _, fieldB_assemble _ _ _⟩
theorem fmtbits (a b : Byte) : Statement (.fmtbits a b) := ⟨formAB 0x08#8 a b, fieldA_assemble _ _ _, fieldB_assemble _ _ _⟩
theorem verfor : Statement .verfor := ⟨formN 0x10#8, fieldA_assemble _ _ _, fieldB_assemble _ _ _⟩
theorem capof (a : Byte) : Statement (.capof a) := ⟨formA 0x11#8 a, fieldA_assemble _ _ _, fieldB_assemble _ _ _⟩
theorem denc : Statement .denc := ⟨formN 0x20#8, fieldA_assemble _ _ _, fieldB_assemble _ _ _⟩
theorem rsgen (a : Byte) : Statement (.rsgen a) := ⟨formA 0x30#8 a, fieldA_assemble _ _ _, fieldB_assemble _ _ _⟩
theorem rsenc (a b : Byte) : Statement (.rsenc a b) := ⟨formAB 0x31#8 a b, fieldA_assemble _ _ _, fieldB_assemble _ _ _⟩
theorem mxinit (a : Byte) : Statement (.mxinit a) := ⟨formA 0x40#8 a, fieldA_assemble _ _ _, fieldB_assemble _ _ _⟩
theorem mxfind : Statement .mxfind := ⟨formN 0x41#8, fieldA_assemble _ _ _, fieldB_assemble _ _ _⟩
theorem mxsep : Statement .mxsep := ⟨formN 0x42#8, fieldA_assemble _ _ _, fieldB_assemble _ _ _⟩
theorem mxtime : Statement .mxtime := ⟨formN 0x43#8, fieldA_assemble _ _ _, fieldB_assemble _ _ _⟩
theorem mxdark : Statement .mxdark := ⟨formN 0x44#8, fieldA_assemble _ _ _, fieldB_assemble _ _ _⟩
theorem mxfmt (a b : Byte) : Statement (.mxfmt a b) := ⟨formAB 0x45#8 a b, fieldA_assemble _ _ _, fieldB_assemble _ _ _⟩
theorem mxdata : Statement .mxdata := ⟨formN 0x46#8, fieldA_assemble _ _ _, fieldB_assemble _ _ _⟩
theorem mskapply (a : Byte) : Statement (.mskapply a) := ⟨formA 0x50#8 a, fieldA_assemble _ _ _, fieldB_assemble _ _ _⟩
theorem mskscore (a : Byte) : Statement (.mskscore a) := ⟨formA 0x51#8 a, fieldA_assemble _ _ _, fieldB_assemble _ _ _⟩
theorem penalty : Statement .penalty := ⟨formN 0x52#8, fieldA_assemble _ _ _, fieldB_assemble _ _ _⟩
theorem msksel : Statement .msksel := ⟨formN 0x53#8, fieldA_assemble _ _ _, fieldB_assemble _ _ _⟩
theorem encode (a : Byte) : Statement (.encode a) := ⟨formA 0x60#8 a, fieldA_assemble _ _ _, fieldB_assemble _ _ _⟩

end Sys2Proof.Laws.TableRow
end

