-- ==== Sys2Proof/Laws/Planes.lean ====
section
/-! SUPPORT. The matrix and mask operations by their cells: equality of planes, the placements' bounds, data placement cell by cell,
and masking cell by cell. -/

namespace Sys2Proof.Machine

/-! ### Equality of planes -/

theorem cellAt_of_lt {row : List (Option Bool)} {c : Nat} (h : c < row.length) : cellAt row c = row[c] := by
  simp [cellAt_eq_getElem, h]

theorem rowAt_of_lt {p : Plane} {r : Nat} (h : r < p.length) : rowAt p r = p[r] := by
  simp [rowAt_eq_getElem, h]

/-- Two planes of the block with the same cells are the same data. -/
theorem Plane.ext {p q : Plane} (hp : p.wf) (hq : q.wf) (h : ∀ r < maxSize, ∀ c < maxSize, p.get r c = q.get r c) : p = q := by
  apply List.ext_getElem (hp.1.trans hq.1.symm)
  intro r hr hr'
  have hpr := hp.2 _ (List.getElem_mem hr)
  have hqr := hq.2 _ (List.getElem_mem hr')
  apply List.ext_getElem (hpr.trans hqr.symm)
  intro c hc hc'
  have := h r (hp.1 ▸ hr) c (hpr ▸ hc)
  simpa [Plane.get, rowAt_of_lt hr, rowAt_of_lt hr', cellAt_of_lt hc, cellAt_of_lt hc'] using this

/-- A plane of the block has no cell outside its 37 rows and columns. -/
theorem Plane.get_outside {p : Plane} (hp : p.wf) {r c : Nat} (h : ¬(r < maxSize ∧ c < maxSize)) : p.get r c = none := by
  rw [Plane.get, cellAt_eq_getElem]
  by_cases hr : r < maxSize
  · have hl : r < p.length := hp.1 ▸ hr
    have := hp.2 _ (List.getElem_mem hl)
    rw [rowAt_of_lt hl, List.getElem?_eq_none (by omega)]
    rfl
  · have hn : p[r]? = none := List.getElem?_eq_none (by have := hp.1; omega)
    simp [rowAt_eq_getElem, hn]

/-! ### The placements stay in the plane -/

/-- The sides of the five versions (R132). -/
theorem LegalSize.side {z : BitVec 6} (h : LegalSize z) (h0 : z ≠ 0#6) :
    z.toNat = 21 ∨ z.toNat = 25 ∨ z.toNat = 29 ∨ z.toNat = 33 ∨ z.toNat = 37 := by
  rcases h with rfl | rfl | rfl | rfl | rfl | rfl
  · exact absurd rfl h0
  all_goals decide

theorem LegalSize.le_maxSize {z : BitVec 6} (h : LegalSize z) : z.toNat ≤ maxSize := by
  rcases h with rfl | rfl | rfl | rfl | rfl | rfl <;> decide

/-- Every write of the list is inside the plane. -/
abbrev InPlane (ws : List CellWrite) : Prop := ∀ w ∈ ws, w.row < maxSize ∧ w.col < maxSize

theorem reserveAll_inPlane {ws : List CellWrite} (h : InPlane ws) : InPlane (reserveAll ws) := by
  intro w hw
  simp only [reserveAll, List.mem_map] at hw
  obtain ⟨v, hv, rfl⟩ := hw
  exact h v hv

theorem reserveBox_inPlane (bs : List BoxCell) (v : Bool) (h : ∀ b ∈ bs, b.row < maxSize ∧ b.col < maxSize) :
    InPlane (reserveBox bs v) := by
  intro w hw
  simp only [reserveBox, List.mem_map] at hw
  obtain ⟨b, hb, rfl⟩ := hw
  exact h b hb

/-- A box cell lies inside the matrix (R173). -/
theorem mem_boxCells {side : Nat} {o : Nat × Nat} {b : BoxCell} (h : b ∈ boxCells side o) : b.row < side ∧ b.col < side := by
  simp only [boxCells, List.mem_flatMap, List.mem_filterMap, List.mem_range] at h
  obtain ⟨dr, -, dc, -, h⟩ := h
  split at h
  · have := Option.some.inj h
    subst this
    simp only
    omega
  · exact absurd h (by simp)

theorem mem_allBoxCells {side : Nat} {b : BoxCell} (h : b ∈ allBoxCells side) : b.row < side ∧ b.col < side := by
  simp only [allBoxCells, List.mem_flatMap] at h
  obtain ⟨o, -, h⟩ := h
  exact mem_boxCells h

theorem finderWrites_inPlane {side : Nat} (h : side ≤ maxSize) : InPlane (finderWrites side) := by
  intro w hw
  simp only [finderWrites, List.mem_map, List.mem_filter] at hw
  obtain ⟨b, ⟨hb, -⟩, rfl⟩ := hw
  have := mem_allBoxCells hb
  exact ⟨this.1.trans_le h, this.2.trans_le h⟩

theorem allBoxCells_inPlane {side : Nat} (h : side ≤ maxSize) (v : Bool) : InPlane (reserveBox (allBoxCells side) v) :=
  reserveBox_inPlane _ v fun _ hb => ⟨(mem_allBoxCells hb).1.trans_le h, (mem_allBoxCells hb).2.trans_le h⟩

theorem separatorCells_inPlane {side : Nat} (h : side ≤ maxSize) (v : Bool) : InPlane (reserveBox (separatorCells side) v) :=
  reserveBox_inPlane _ v fun _ hb =>
    ⟨(mem_allBoxCells (List.mem_filter.1 hb).1).1.trans_le h, (mem_allBoxCells (List.mem_filter.1 hb).1).2.trans_le h⟩

theorem timingWrites_inPlane {side : Nat} (h : side ≤ maxSize) : InPlane (timingWrites side) := by
  intro w hw
  simp only [timingWrites, timingIndices, List.mem_flatMap, List.mem_filter, List.mem_range] at hw
  obtain ⟨i, ⟨hi, -⟩, hw⟩ := hw
  simp only [List.mem_cons, List.not_mem_nil, or_false] at hw
  unfold maxSize at h ⊢
  rcases hw with rfl | rfl <;> simp only <;> omega

theorem fmtWrites_inPlane {side : Nat} (o : FmtBitOrder) (f : BitVec 15) (h : side ≤ maxSize) (h8 : 8 < side) :
    InPlane (fmtWrites o side f) := by
  intro w hw
  simp only [fmtWrites, List.mem_append, List.mem_map, List.mem_range] at hw
  unfold maxSize at h ⊢
  rcases hw with ⟨i, hi, rfl⟩ | ⟨i, hi, rfl⟩
  · simp only [fmtCell1]
    split
    · simp only; omega
    · split
      · simp only; omega
      · split
        · simp only; omega
        · simp only; omega
  · simp only [fmtCell2]
    split
    · simp only; omega
    · simp only; omega

/-! ### Data placement (R186) -/

/-- The unreserved cells of a list of cells, in its order. -/
def unreservedCells (reserved : Plane) (cells : List (Nat × Nat)) : List (Nat × Nat) :=
  cells.filter fun cell => reserved.get cell.1 cell.2 == some false

/-- Data placement stops on an unwritten reserved flag only. -/
theorem placeBits_isSome {reserved : Plane} {cells : List (Nat × Nat)}
    (h : ∀ cell ∈ cells, (reserved.get cell.1 cell.2).isSome = true) (bits : List Bool) (k : Nat) (m : Plane) :
    (placeBits reserved cells bits k m).isSome = true := by
  induction cells generalizing bits k m with
  | nil => rfl
  | cons cell cells ih =>
    obtain ⟨r, c⟩ := cell
    have h0 := h (r, c) (by simp)
    have ih := ih fun x hx => h x (by simp [hx])
    cases hq : reserved.get r c with
    | none => simp [hq] at h0
    | some q =>
      cases q
      · cases bits <;> simp [placeBits, hq, ih]
      · simp [placeBits, hq, ih]

/-- The number of bits placed: all of them, or one for every unreserved cell. -/
theorem placeBits_count {reserved : Plane} {cells : List (Nat × Nat)} {bits : List Bool} {k n : Nat} {m m' : Plane}
    (h : placeBits reserved cells bits k m = some (m', n)) :
    n = k + min bits.length (unreservedCells reserved cells).length := by
  induction cells generalizing bits k m with
  | nil =>
    simp only [placeBits, Option.some.injEq, Prod.mk.injEq] at h
    simp [unreservedCells, h.2]
  | cons cell cells ih =>
    obtain ⟨r, c⟩ := cell
    cases hq : reserved.get r c with
    | none => simp [placeBits, hq] at h
    | some q =>
      cases q
      · cases bits with
        | nil =>
          simp only [placeBits, hq] at h
          simpa using ih h
        | cons b bs =>
          simp only [placeBits, hq] at h
          have := ih h
          simp only [unreservedCells, List.filter_cons, hq, beq_self_eq_true, if_true, List.length_cons] at this ⊢
          omega
      · simp only [placeBits, hq] at h
        have := ih h
        simpa [unreservedCells, List.filter_cons, hq] using this

/-- A cell that is not an unreserved cell of the list keeps its module. -/
theorem placeBits_get_other {reserved : Plane} {cells : List (Nat × Nat)} {bits : List Bool} {k n : Nat} {m m' : Plane}
    (h : placeBits reserved cells bits k m = some (m', n)) {r c : Nat} (hc : (r, c) ∉ unreservedCells reserved cells) :
    m'.get r c = m.get r c := by
  induction cells generalizing bits k m with
  | nil =>
    simp only [placeBits, Option.some.injEq, Prod.mk.injEq] at h
    rw [h.1]
  | cons cell cells ih =>
    obtain ⟨r0, c0⟩ := cell
    cases hq : reserved.get r0 c0 with
    | none => simp [placeBits, hq] at h
    | some q =>
      cases q
      · have hne : ¬(r = r0 ∧ c = c0) := by
          rintro ⟨rfl, rfl⟩
          exact hc (by simp [unreservedCells, hq])
        have hc' : (r, c) ∉ unreservedCells reserved cells := fun hm => hc (by
          simp only [unreservedCells, List.filter_cons, hq, beq_self_eq_true, if_true]
          exact List.mem_cons_of_mem _ hm)
        cases bits with
        | nil =>
          simp only [placeBits, hq] at h
          rw [ih h hc', Plane.get_set, if_neg hne]
        | cons b bs =>
          simp only [placeBits, hq] at h
          rw [ih h hc', Plane.get_set, if_neg hne]
      · simp only [placeBits, hq] at h
        exact ih h (by simpa [unreservedCells, List.filter_cons, hq] using hc)

/-- The j-th unreserved cell takes bit j, or light after the last bit. -/
theorem placeBits_get {reserved : Plane} {cells : List (Nat × Nat)} {bits : List Bool} {k n : Nat} {m m' : Plane}
    (h : placeBits reserved cells bits k m = some (m', n)) (hd : cells.Nodup) {j r c : Nat}
    (hj : (unreservedCells reserved cells)[j]? = some (r, c)) : m'.get r c = some (bits.getD j false) := by
  induction cells generalizing bits k m j with
  | nil => simp [unreservedCells] at hj
  | cons cell cells ih =>
    obtain ⟨r0, c0⟩ := cell
    obtain ⟨hn, hd⟩ := List.nodup_cons.1 hd
    cases hq : reserved.get r0 c0 with
    | none => simp [placeBits, hq] at h
    | some q =>
      cases q
      · have hcons : unreservedCells reserved ((r0, c0) :: cells) = (r0, c0) :: unreservedCells reserved cells := by
          simp [unreservedCells, hq]
        have hout : (r0, c0) ∉ unreservedCells reserved cells := fun hm => hn (List.mem_filter.1 hm).1
        rw [hcons] at hj
        cases j with
        | zero =>
          simp only [List.getElem?_cons_zero, Option.some.injEq, Prod.mk.injEq] at hj
          obtain ⟨rfl, rfl⟩ := hj
          cases bits with
          | nil =>
            simp only [placeBits, hq] at h
            rw [placeBits_get_other h hout, Plane.get_set]
            simp
          | cons b bs =>
            simp only [placeBits, hq] at h
            rw [placeBits_get_other h hout, Plane.get_set]
            simp
        | succ j =>
          rw [List.getElem?_cons_succ] at hj
          cases bits with
          | nil =>
            simp only [placeBits, hq] at h
            simpa using ih h hd hj
          | cons b bs =>
            simp only [placeBits, hq] at h
            simpa using ih h hd hj
      · simp only [placeBits, hq] at h
        exact ih h hd (by simpa [unreservedCells, List.filter_cons, hq] using hj)

/-- Data placement inside the plane keeps its shape. -/
theorem placeBits_wf {reserved : Plane} {cells : List (Nat × Nat)} {bits : List Bool} {k n : Nat} {m m' : Plane}
    (h : placeBits reserved cells bits k m = some (m', n)) (hm : m.wf)
    (hc : ∀ cell ∈ cells, cell.1 < maxSize ∧ cell.2 < maxSize) : m'.wf := by
  induction cells generalizing bits k m with
  | nil =>
    simp only [placeBits, Option.some.injEq, Prod.mk.injEq] at h
    rw [← h.1]
    exact hm
  | cons cell cells ih =>
    obtain ⟨r, c⟩ := cell
    have h0 := hc (r, c) (by simp)
    have ih := fun bits k m h hm => @ih bits k m h hm fun x hx => hc x (by simp [hx])
    cases hq : reserved.get r c with
    | none => simp [placeBits, hq] at h
    | some q =>
      cases q
      · cases bits with
        | nil =>
          simp only [placeBits, hq] at h
          exact ih _ _ _ h (Plane.set_wf hm _ h0.1 h0.2)
        | cons b bs =>
          simp only [placeBits, hq] at h
          exact ih _ _ _ h (Plane.set_wf hm _ h0.1 h0.2)
      · simp only [placeBits, hq] at h
        exact ih _ _ _ h hm

/-! ### Masking (R201) -/

theorem applyMask_eq_some {reserved x y : Plane} {side m : Nat} :
    applyMask reserved x side m = some y ↔
      maskReadable reserved x side m = true ∧ y = Plane.build (maskedCell reserved x side m) := by
  unfold applyMask
  split
  · rename_i h
    simp only [h, true_and]
    exact ⟨fun h => (Option.some.inj h).symm, fun h => h ▸ rfl⟩
  · rename_i h
    simp [h]

/-- The cells of a masked plane. -/
theorem applyMask_get {reserved x y : Plane} {side m : Nat} (h : applyMask reserved x side m = some y) (r c : Nat) :
    y.get r c = if r < maxSize ∧ c < maxSize then maskedCell reserved x side m r c else none := by
  rw [(applyMask_eq_some.1 h).2, Plane.get_build]

theorem applyMask_wf {reserved x y : Plane} {side m : Nat} (h : applyMask reserved x side m = some y) : y.wf := by
  rw [(applyMask_eq_some.1 h).2]
  exact Plane.build_wf _

/-- A reserved cell is never changed by a mask. -/
theorem maskedCell_reserved {reserved x : Plane} {side m r c : Nat} (h : reserved.get r c = some true) :
    maskedCell reserved x side m r c = x.get r c := by
  simp [maskedCell, h]

/-- With every cell written a mask stops on nothing. -/
theorem maskReadable_of_allWritten {reserved x : Plane} {side : Nat} (hr : reserved.AllWritten) (hx : x.AllWritten)
    (h : side ≤ maxSize) (m : Nat) : maskReadable reserved x side m = true := by
  simp only [maskReadable, forCells, List.all_eq_true, List.mem_range]
  intro r hrs c hcs
  have h1 := hr r (hrs.trans_le h) c (hcs.trans_le h)
  have h2 := hx r (hrs.trans_le h) c (hcs.trans_le h)
  cases hq : reserved.get r c with
  | none => simp [hq] at h1
  | some q => cases q <;> simp [h2]

theorem maskedCell_isSome {reserved x : Plane} {side m r c : Nat} :
    (maskedCell reserved x side m r c).isSome = (x.get r c).isSome := by
  unfold maskedCell
  split
  · cases reserved.get r c with
    | none => rfl
    | some q =>
      cases q
      · simp only
        split <;> simp
      · rfl
  · rfl

theorem applyMask_allWritten {reserved x y : Plane} {side m : Nat} (h : applyMask reserved x side m = some y)
    (hx : x.AllWritten) : y.AllWritten := by
  intro r hr c hc
  rw [applyMask_get h, if_pos ⟨hr, hc⟩, maskedCell_isSome]
  exact hx r hr c hc

/-! ### Scoring (R202, R207) -/

/-- With every cell written the penalty of a plane is defined. -/
theorem penalty_isSome {x : Plane} {side : Nat} (hx : x.AllWritten) (h : side ≤ maxSize) :
    (x.penalty side).isSome = true := by
  have hrow : ∀ r < side, (x.row side r).isSome = true := fun r hr => allPresent_isSome.2 fun y hy => by
    simp only [List.mem_map, List.mem_range] at hy
    obtain ⟨c, hc, rfl⟩ := hy
    exact hx r (hr.trans_le h) c (hc.trans_le h)
  have hcol : ∀ c < side, (x.col side c).isSome = true := fun c hc => allPresent_isSome.2 fun y hy => by
    simp only [List.mem_map, List.mem_range] at hy
    obtain ⟨r, hr, rfl⟩ := hy
    exact hx r (hr.trans_le h) c (hc.trans_le h)
  rw [Plane.penalty, Option.isSome_map, Plane.lines]
  refine allPresent_isSome.2 fun y hy => ?_
  simp only [List.mem_append, List.mem_map, List.mem_range] at hy
  rcases hy with ⟨r, hr, rfl⟩ | ⟨c, hc, rfl⟩
  · exact hrow r hr
  · exact hcol c hc

/-- The chosen index names a least element and no earlier one is as low. -/
theorem bestFrom_spec (xs : List Nat) (seen : List Nat) (best : Nat) (hb : best < seen.length)
    (hlow : ∀ m < seen.length, seen.getD best 0 ≤ seen.getD m 0)
    (hfirst : ∀ m < best, seen.getD best 0 < seen.getD m 0) :
    let res := bestFrom best (seen.getD best 0) seen.length xs
    res < (seen ++ xs).length ∧ (∀ m < (seen ++ xs).length, (seen ++ xs).getD res 0 ≤ (seen ++ xs).getD m 0) ∧
      ∀ m < res, (seen ++ xs).getD res 0 < (seen ++ xs).getD m 0 := by
  induction xs generalizing seen best with
  | nil => simpa [bestFrom] using ⟨hb, hlow, hfirst⟩
  | cons x xs ih =>
    have hleft : ∀ m < seen.length, (seen ++ [x]).getD m 0 = seen.getD m 0 := fun m hm => by
      simp [List.getElem?_append_left hm]
    have hlast : (seen ++ [x]).getD seen.length 0 = x := by simp
    have hlen : (seen ++ [x]).length = seen.length + 1 := by simp
    have happ : seen ++ x :: xs = (seen ++ [x]) ++ xs := by simp
    simp only [bestFrom, happ]
    split
    · rename_i hx
      have := ih (seen ++ [x]) seen.length (by omega)
        (fun m hm => by
          rw [hlast]
          rcases Nat.lt_or_ge m seen.length with h | h
          · rw [hleft m h]
            exact (Nat.le_of_lt hx).trans (hlow m h)
          · rw [show m = seen.length by omega, hlast])
        (fun m hm => by
          rw [hlast, hleft m hm]
          exact hx.trans_le (hlow m hm))
      rw [hlast, hlen] at this
      exact this
    · rename_i hx
      have := ih (seen ++ [x]) best (by omega)
        (fun m hm => by
          rw [hleft best hb]
          rcases Nat.lt_or_ge m seen.length with h | h
          · rw [hleft m h]
            exact hlow m h
          · rw [show m = seen.length by omega, hlast]
            omega)
        (fun m hm => by
          rw [hleft best hb, hleft m (by omega)]
          exact hfirst m hm)
      rw [hleft best hb, hlen] at this
      exact this

end Sys2Proof.Machine
end

