-- ==== Sys2Proof/Laws/State.lean ====
section
/-! SUPPORT. One lemma per field per update of State: what the update leaves in the field. Later proofs use these and unfold no
record update. -/

namespace Sys2Proof.Machine

variable (s : State)

/-! ### State.complete -/

@[simp] theorem State.complete_cfg : s.complete.cfg = s.cfg := rfl
@[simp] theorem State.complete_ctrl : s.complete.ctrl = s.ctrl := rfl
@[simp] theorem State.complete_status : s.complete.status = s.status.setDone := rfl
@[simp] theorem State.complete_pend : s.complete.pend = none := rfl
@[simp] theorem State.complete_result : s.complete.result = s.result := rfl
@[simp] theorem State.complete_errinfo : s.complete.errinfo = s.errinfo := rfl
@[simp] theorem State.complete_len : s.complete.len = s.len := rfl
@[simp] theorem State.complete_ver : s.complete.ver = s.ver := rfl
@[simp] theorem State.complete_cap : s.complete.cap = s.cap := rfl
@[simp] theorem State.complete_cwlen : s.complete.cwlen = s.cwlen := rfl
@[simp] theorem State.complete_size : s.complete.size = s.size := rfl
@[simp] theorem State.complete_fmt : s.complete.fmt = s.fmt := rfl
@[simp] theorem State.complete_maskid : s.complete.maskid = s.maskid := rfl
@[simp] theorem State.complete_bitcnt : s.complete.bitcnt = s.bitcnt := rfl
@[simp] theorem State.complete_pentab : s.complete.pentab = s.pentab := rfl
@[simp] theorem State.complete_mem : s.complete.mem = s.mem := rfl
@[simp] theorem State.complete_planeM : s.complete.planeM = s.planeM := rfl
@[simp] theorem State.complete_planeR : s.complete.planeR = s.planeR := rfl
@[simp] theorem State.complete_planeS : s.complete.planeS = s.planeS := rfl
@[simp] theorem State.complete_rom : s.complete.rom = s.rom := rfl
@[simp] theorem State.complete_hostQ : s.complete.hostQ = s.hostQ := rfl
@[simp] theorem State.complete_readLog : s.complete.readLog = s.readLog := rfl
@[simp] theorem State.complete_left : s.complete.left = s.left := rfl
@[simp] theorem State.complete_issued : s.complete.issued = s.issued := rfl

/-! ### State.reportError -/

@[simp] theorem State.reportError_cfg (c : ErrCode) (w : Word) : (s.reportError c w).cfg = s.cfg := rfl
@[simp] theorem State.reportError_ctrl (c : ErrCode) (w : Word) : (s.reportError c w).ctrl = s.ctrl := rfl
@[simp] theorem State.reportError_status (c : ErrCode) (w : Word) : (s.reportError c w).status = s.status.setError c := rfl
@[simp] theorem State.reportError_pend (c : ErrCode) (w : Word) : (s.reportError c w).pend = none := rfl
@[simp] theorem State.reportError_result (c : ErrCode) (w : Word) : (s.reportError c w).result = s.result := rfl
@[simp] theorem State.reportError_errinfo (c : ErrCode) (w : Word) : (s.reportError c w).errinfo = w := rfl
@[simp] theorem State.reportError_len (c : ErrCode) (w : Word) : (s.reportError c w).len = s.len := rfl
@[simp] theorem State.reportError_ver (c : ErrCode) (w : Word) : (s.reportError c w).ver = s.ver := rfl
@[simp] theorem State.reportError_cap (c : ErrCode) (w : Word) : (s.reportError c w).cap = s.cap := rfl
@[simp] theorem State.reportError_cwlen (c : ErrCode) (w : Word) : (s.reportError c w).cwlen = s.cwlen := rfl
@[simp] theorem State.reportError_size (c : ErrCode) (w : Word) : (s.reportError c w).size = s.size := rfl
@[simp] theorem State.reportError_fmt (c : ErrCode) (w : Word) : (s.reportError c w).fmt = s.fmt := rfl
@[simp] theorem State.reportError_maskid (c : ErrCode) (w : Word) : (s.reportError c w).maskid = s.maskid := rfl
@[simp] theorem State.reportError_bitcnt (c : ErrCode) (w : Word) : (s.reportError c w).bitcnt = s.bitcnt := rfl
@[simp] theorem State.reportError_pentab (c : ErrCode) (w : Word) : (s.reportError c w).pentab = s.pentab := rfl
@[simp] theorem State.reportError_mem (c : ErrCode) (w : Word) : (s.reportError c w).mem = s.mem := rfl
@[simp] theorem State.reportError_planeM (c : ErrCode) (w : Word) : (s.reportError c w).planeM = s.planeM := rfl
@[simp] theorem State.reportError_planeR (c : ErrCode) (w : Word) : (s.reportError c w).planeR = s.planeR := rfl
@[simp] theorem State.reportError_planeS (c : ErrCode) (w : Word) : (s.reportError c w).planeS = s.planeS := rfl
@[simp] theorem State.reportError_rom (c : ErrCode) (w : Word) : (s.reportError c w).rom = s.rom := rfl
@[simp] theorem State.reportError_hostQ (c : ErrCode) (w : Word) : (s.reportError c w).hostQ = s.hostQ := rfl
@[simp] theorem State.reportError_readLog (c : ErrCode) (w : Word) : (s.reportError c w).readLog = s.readLog := rfl
@[simp] theorem State.reportError_left (c : ErrCode) (w : Word) : (s.reportError c w).left = s.left := rfl
@[simp] theorem State.reportError_issued (c : ErrCode) (w : Word) : (s.reportError c w).issued = s.issued := rfl

/-! ### State.clearStatus -/

@[simp] theorem State.clearStatus_cfg (v : Word) : (s.clearStatus v).cfg = s.cfg := rfl
@[simp] theorem State.clearStatus_ctrl (v : Word) : (s.clearStatus v).ctrl = s.ctrl := rfl
@[simp] theorem State.clearStatus_status (v : Word) : (s.clearStatus v).status = s.status.writeOneToClear v := rfl
@[simp] theorem State.clearStatus_pend (v : Word) : (s.clearStatus v).pend = s.pend := rfl
@[simp] theorem State.clearStatus_result (v : Word) : (s.clearStatus v).result = s.result := rfl
@[simp] theorem State.clearStatus_errinfo (v : Word) : (s.clearStatus v).errinfo = s.errinfo := rfl
@[simp] theorem State.clearStatus_len (v : Word) : (s.clearStatus v).len = s.len := rfl
@[simp] theorem State.clearStatus_ver (v : Word) : (s.clearStatus v).ver = s.ver := rfl
@[simp] theorem State.clearStatus_cap (v : Word) : (s.clearStatus v).cap = s.cap := rfl
@[simp] theorem State.clearStatus_cwlen (v : Word) : (s.clearStatus v).cwlen = s.cwlen := rfl
@[simp] theorem State.clearStatus_size (v : Word) : (s.clearStatus v).size = s.size := rfl
@[simp] theorem State.clearStatus_fmt (v : Word) : (s.clearStatus v).fmt = s.fmt := rfl
@[simp] theorem State.clearStatus_maskid (v : Word) : (s.clearStatus v).maskid = s.maskid := rfl
@[simp] theorem State.clearStatus_bitcnt (v : Word) : (s.clearStatus v).bitcnt = s.bitcnt := rfl
@[simp] theorem State.clearStatus_pentab (v : Word) : (s.clearStatus v).pentab = s.pentab := rfl
@[simp] theorem State.clearStatus_mem (v : Word) : (s.clearStatus v).mem = s.mem := rfl
@[simp] theorem State.clearStatus_planeM (v : Word) : (s.clearStatus v).planeM = s.planeM := rfl
@[simp] theorem State.clearStatus_planeR (v : Word) : (s.clearStatus v).planeR = s.planeR := rfl
@[simp] theorem State.clearStatus_planeS (v : Word) : (s.clearStatus v).planeS = s.planeS := rfl
@[simp] theorem State.clearStatus_rom (v : Word) : (s.clearStatus v).rom = s.rom := rfl
@[simp] theorem State.clearStatus_hostQ (v : Word) : (s.clearStatus v).hostQ = s.hostQ := rfl
@[simp] theorem State.clearStatus_readLog (v : Word) : (s.clearStatus v).readLog = s.readLog := rfl
@[simp] theorem State.clearStatus_left (v : Word) : (s.clearStatus v).left = s.left := rfl
@[simp] theorem State.clearStatus_issued (v : Word) : (s.clearStatus v).issued = s.issued := rfl

/-! ### State.putData -/

@[simp] theorem State.putData_cfg (d : Nat) (p : List Byte) : (s.putData d p).cfg = s.cfg := rfl
@[simp] theorem State.putData_ctrl (d : Nat) (p : List Byte) : (s.putData d p).ctrl = s.ctrl := rfl
@[simp] theorem State.putData_status (d : Nat) (p : List Byte) : (s.putData d p).status = s.status := rfl
@[simp] theorem State.putData_pend (d : Nat) (p : List Byte) : (s.putData d p).pend = s.pend := rfl
@[simp] theorem State.putData_result (d : Nat) (p : List Byte) : (s.putData d p).result = s.result := rfl
@[simp] theorem State.putData_errinfo (d : Nat) (p : List Byte) : (s.putData d p).errinfo = s.errinfo := rfl
@[simp] theorem State.putData_len (d : Nat) (p : List Byte) : (s.putData d p).len = s.len := rfl
@[simp] theorem State.putData_ver (d : Nat) (p : List Byte) : (s.putData d p).ver = s.ver := rfl
@[simp] theorem State.putData_cap (d : Nat) (p : List Byte) : (s.putData d p).cap = s.cap := rfl
@[simp] theorem State.putData_cwlen (d : Nat) (p : List Byte) : (s.putData d p).cwlen = BitVec.ofNat 32 d := rfl
@[simp] theorem State.putData_size (d : Nat) (p : List Byte) : (s.putData d p).size = s.size := rfl
@[simp] theorem State.putData_fmt (d : Nat) (p : List Byte) : (s.putData d p).fmt = s.fmt := rfl
@[simp] theorem State.putData_maskid (d : Nat) (p : List Byte) : (s.putData d p).maskid = s.maskid := rfl
@[simp] theorem State.putData_bitcnt (d : Nat) (p : List Byte) : (s.putData d p).bitcnt = s.bitcnt := rfl
@[simp] theorem State.putData_pentab (d : Nat) (p : List Byte) : (s.putData d p).pentab = s.pentab := rfl
@[simp] theorem State.putData_mem (d : Nat) (p : List Byte) : (s.putData d p).mem = s.mem.writeBytes cwBase (dataCodewords d p) := rfl
@[simp] theorem State.putData_planeM (d : Nat) (p : List Byte) : (s.putData d p).planeM = s.planeM := rfl
@[simp] theorem State.putData_planeR (d : Nat) (p : List Byte) : (s.putData d p).planeR = s.planeR := rfl
@[simp] theorem State.putData_planeS (d : Nat) (p : List Byte) : (s.putData d p).planeS = s.planeS := rfl
@[simp] theorem State.putData_rom (d : Nat) (p : List Byte) : (s.putData d p).rom = s.rom := rfl
@[simp] theorem State.putData_hostQ (d : Nat) (p : List Byte) : (s.putData d p).hostQ = s.hostQ := rfl
@[simp] theorem State.putData_readLog (d : Nat) (p : List Byte) : (s.putData d p).readLog = s.readLog := rfl
@[simp] theorem State.putData_left (d : Nat) (p : List Byte) : (s.putData d p).left = s.left := rfl
@[simp] theorem State.putData_issued (d : Nat) (p : List Byte) : (s.putData d p).issued = s.issued := rfl

/-! ### State.putGen -/

@[simp] theorem State.putGen_cfg (n : Nat) : (s.putGen n).cfg = s.cfg := rfl
@[simp] theorem State.putGen_ctrl (n : Nat) : (s.putGen n).ctrl = s.ctrl := rfl
@[simp] theorem State.putGen_status (n : Nat) : (s.putGen n).status = s.status := rfl
@[simp] theorem State.putGen_pend (n : Nat) : (s.putGen n).pend = s.pend := rfl
@[simp] theorem State.putGen_result (n : Nat) : (s.putGen n).result = s.result := rfl
@[simp] theorem State.putGen_errinfo (n : Nat) : (s.putGen n).errinfo = s.errinfo := rfl
@[simp] theorem State.putGen_len (n : Nat) : (s.putGen n).len = s.len := rfl
@[simp] theorem State.putGen_ver (n : Nat) : (s.putGen n).ver = s.ver := rfl
@[simp] theorem State.putGen_cap (n : Nat) : (s.putGen n).cap = s.cap := rfl
@[simp] theorem State.putGen_cwlen (n : Nat) : (s.putGen n).cwlen = s.cwlen := rfl
@[simp] theorem State.putGen_size (n : Nat) : (s.putGen n).size = s.size := rfl
@[simp] theorem State.putGen_fmt (n : Nat) : (s.putGen n).fmt = s.fmt := rfl
@[simp] theorem State.putGen_maskid (n : Nat) : (s.putGen n).maskid = s.maskid := rfl
@[simp] theorem State.putGen_bitcnt (n : Nat) : (s.putGen n).bitcnt = s.bitcnt := rfl
@[simp] theorem State.putGen_pentab (n : Nat) : (s.putGen n).pentab = s.pentab := rfl
@[simp] theorem State.putGen_mem (n : Nat) : (s.putGen n).mem = s.mem.writeBytes genBase (s.rom.buildGen n) := rfl
@[simp] theorem State.putGen_planeM (n : Nat) : (s.putGen n).planeM = s.planeM := rfl
@[simp] theorem State.putGen_planeR (n : Nat) : (s.putGen n).planeR = s.planeR := rfl
@[simp] theorem State.putGen_planeS (n : Nat) : (s.putGen n).planeS = s.planeS := rfl
@[simp] theorem State.putGen_rom (n : Nat) : (s.putGen n).rom = s.rom := rfl
@[simp] theorem State.putGen_hostQ (n : Nat) : (s.putGen n).hostQ = s.hostQ := rfl
@[simp] theorem State.putGen_readLog (n : Nat) : (s.putGen n).readLog = s.readLog := rfl
@[simp] theorem State.putGen_left (n : Nat) : (s.putGen n).left = s.left := rfl
@[simp] theorem State.putGen_issued (n : Nat) : (s.putGen n).issued = s.issued := rfl

/-! ### State.putEc -/

@[simp] theorem State.putEc_cfg (d n : Nat) (data : List Byte) : (s.putEc d n data).cfg = s.cfg := rfl
@[simp] theorem State.putEc_ctrl (d n : Nat) (data : List Byte) : (s.putEc d n data).ctrl = s.ctrl := rfl
@[simp] theorem State.putEc_status (d n : Nat) (data : List Byte) : (s.putEc d n data).status = s.status := rfl
@[simp] theorem State.putEc_pend (d n : Nat) (data : List Byte) : (s.putEc d n data).pend = s.pend := rfl
@[simp] theorem State.putEc_result (d n : Nat) (data : List Byte) : (s.putEc d n data).result = s.result := rfl
@[simp] theorem State.putEc_errinfo (d n : Nat) (data : List Byte) : (s.putEc d n data).errinfo = s.errinfo := rfl
@[simp] theorem State.putEc_len (d n : Nat) (data : List Byte) : (s.putEc d n data).len = s.len := rfl
@[simp] theorem State.putEc_ver (d n : Nat) (data : List Byte) : (s.putEc d n data).ver = s.ver := rfl
@[simp] theorem State.putEc_cap (d n : Nat) (data : List Byte) : (s.putEc d n data).cap = s.cap := rfl
@[simp] theorem State.putEc_cwlen (d n : Nat) (data : List Byte) : (s.putEc d n data).cwlen = BitVec.ofNat 32 (d + n) := rfl
@[simp] theorem State.putEc_size (d n : Nat) (data : List Byte) : (s.putEc d n data).size = s.size := rfl
@[simp] theorem State.putEc_fmt (d n : Nat) (data : List Byte) : (s.putEc d n data).fmt = s.fmt := rfl
@[simp] theorem State.putEc_maskid (d n : Nat) (data : List Byte) : (s.putEc d n data).maskid = s.maskid := rfl
@[simp] theorem State.putEc_bitcnt (d n : Nat) (data : List Byte) : (s.putEc d n data).bitcnt = s.bitcnt := rfl
@[simp] theorem State.putEc_pentab (d n : Nat) (data : List Byte) : (s.putEc d n data).pentab = s.pentab := rfl
@[simp] theorem State.putEc_mem (d n : Nat) (data : List Byte) : (s.putEc d n data).mem = (s.mem.writeBytes genBase (s.rom.buildGen n)).writeBytes (cwBase + d) (s.rom.remainder data (s.rom.buildGen n)) := rfl
@[simp] theorem State.putEc_planeM (d n : Nat) (data : List Byte) : (s.putEc d n data).planeM = s.planeM := rfl
@[simp] theorem State.putEc_planeR (d n : Nat) (data : List Byte) : (s.putEc d n data).planeR = s.planeR := rfl
@[simp] theorem State.putEc_planeS (d n : Nat) (data : List Byte) : (s.putEc d n data).planeS = s.planeS := rfl
@[simp] theorem State.putEc_rom (d n : Nat) (data : List Byte) : (s.putEc d n data).rom = s.rom := rfl
@[simp] theorem State.putEc_hostQ (d n : Nat) (data : List Byte) : (s.putEc d n data).hostQ = s.hostQ := rfl
@[simp] theorem State.putEc_readLog (d n : Nat) (data : List Byte) : (s.putEc d n data).readLog = s.readLog := rfl
@[simp] theorem State.putEc_left (d n : Nat) (data : List Byte) : (s.putEc d n data).left = s.left := rfl
@[simp] theorem State.putEc_issued (d n : Nat) (data : List Byte) : (s.putEc d n data).issued = s.issued := rfl

/-! ### State.initMatrix -/

@[simp] theorem State.initMatrix_cfg (v : Nat) : (s.initMatrix v).cfg = s.cfg := rfl
@[simp] theorem State.initMatrix_ctrl (v : Nat) : (s.initMatrix v).ctrl = s.ctrl := rfl
@[simp] theorem State.initMatrix_status (v : Nat) : (s.initMatrix v).status = s.status := rfl
@[simp] theorem State.initMatrix_pend (v : Nat) : (s.initMatrix v).pend = s.pend := rfl
@[simp] theorem State.initMatrix_result (v : Nat) : (s.initMatrix v).result = s.result := rfl
@[simp] theorem State.initMatrix_errinfo (v : Nat) : (s.initMatrix v).errinfo = s.errinfo := rfl
@[simp] theorem State.initMatrix_len (v : Nat) : (s.initMatrix v).len = s.len := rfl
@[simp] theorem State.initMatrix_ver (v : Nat) : (s.initMatrix v).ver = s.ver := rfl
@[simp] theorem State.initMatrix_cap (v : Nat) : (s.initMatrix v).cap = s.cap := rfl
@[simp] theorem State.initMatrix_cwlen (v : Nat) : (s.initMatrix v).cwlen = s.cwlen := rfl
@[simp] theorem State.initMatrix_size (v : Nat) : (s.initMatrix v).size = BitVec.ofNat 6 (sideOf v) := rfl
@[simp] theorem State.initMatrix_fmt (v : Nat) : (s.initMatrix v).fmt = s.fmt := rfl
@[simp] theorem State.initMatrix_maskid (v : Nat) : (s.initMatrix v).maskid = s.maskid := rfl
@[simp] theorem State.initMatrix_bitcnt (v : Nat) : (s.initMatrix v).bitcnt = s.bitcnt := rfl
@[simp] theorem State.initMatrix_pentab (v : Nat) : (s.initMatrix v).pentab = s.pentab := rfl
@[simp] theorem State.initMatrix_mem (v : Nat) : (s.initMatrix v).mem = s.mem := rfl
@[simp] theorem State.initMatrix_planeM (v : Nat) : (s.initMatrix v).planeM = Plane.fill false := rfl
@[simp] theorem State.initMatrix_planeR (v : Nat) : (s.initMatrix v).planeR = Plane.fill false := rfl
@[simp] theorem State.initMatrix_planeS (v : Nat) : (s.initMatrix v).planeS = s.planeS := rfl
@[simp] theorem State.initMatrix_rom (v : Nat) : (s.initMatrix v).rom = s.rom := rfl
@[simp] theorem State.initMatrix_hostQ (v : Nat) : (s.initMatrix v).hostQ = s.hostQ := rfl
@[simp] theorem State.initMatrix_readLog (v : Nat) : (s.initMatrix v).readLog = s.readLog := rfl
@[simp] theorem State.initMatrix_left (v : Nat) : (s.initMatrix v).left = s.left := rfl
@[simp] theorem State.initMatrix_issued (v : Nat) : (s.initMatrix v).issued = s.issued := rfl

/-! ### State.placeFinders -/

@[simp] theorem State.placeFinders_cfg : s.placeFinders.cfg = s.cfg := rfl
@[simp] theorem State.placeFinders_ctrl : s.placeFinders.ctrl = s.ctrl := rfl
@[simp] theorem State.placeFinders_status : s.placeFinders.status = s.status := rfl
@[simp] theorem State.placeFinders_pend : s.placeFinders.pend = s.pend := rfl
@[simp] theorem State.placeFinders_result : s.placeFinders.result = s.result := rfl
@[simp] theorem State.placeFinders_errinfo : s.placeFinders.errinfo = s.errinfo := rfl
@[simp] theorem State.placeFinders_len : s.placeFinders.len = s.len := rfl
@[simp] theorem State.placeFinders_ver : s.placeFinders.ver = s.ver := rfl
@[simp] theorem State.placeFinders_cap : s.placeFinders.cap = s.cap := rfl
@[simp] theorem State.placeFinders_cwlen : s.placeFinders.cwlen = s.cwlen := rfl
@[simp] theorem State.placeFinders_size : s.placeFinders.size = s.size := rfl
@[simp] theorem State.placeFinders_fmt : s.placeFinders.fmt = s.fmt := rfl
@[simp] theorem State.placeFinders_maskid : s.placeFinders.maskid = s.maskid := rfl
@[simp] theorem State.placeFinders_bitcnt : s.placeFinders.bitcnt = s.bitcnt := rfl
@[simp] theorem State.placeFinders_pentab : s.placeFinders.pentab = s.pentab := rfl
@[simp] theorem State.placeFinders_mem : s.placeFinders.mem = s.mem := rfl
@[simp] theorem State.placeFinders_planeM : s.placeFinders.planeM = s.planeM.setAll (finderWrites s.size.toNat) := rfl
@[simp] theorem State.placeFinders_planeR : s.placeFinders.planeR = s.planeR.setAll (reserveBox (allBoxCells s.size.toNat) true) := rfl
@[simp] theorem State.placeFinders_planeS : s.placeFinders.planeS = s.planeS := rfl
@[simp] theorem State.placeFinders_rom : s.placeFinders.rom = s.rom := rfl
@[simp] theorem State.placeFinders_hostQ : s.placeFinders.hostQ = s.hostQ := rfl
@[simp] theorem State.placeFinders_readLog : s.placeFinders.readLog = s.readLog := rfl
@[simp] theorem State.placeFinders_left : s.placeFinders.left = s.left := rfl
@[simp] theorem State.placeFinders_issued : s.placeFinders.issued = s.issued := rfl

/-! ### State.placeSeparators -/

@[simp] theorem State.placeSeparators_cfg : s.placeSeparators.cfg = s.cfg := rfl
@[simp] theorem State.placeSeparators_ctrl : s.placeSeparators.ctrl = s.ctrl := rfl
@[simp] theorem State.placeSeparators_status : s.placeSeparators.status = s.status := rfl
@[simp] theorem State.placeSeparators_pend : s.placeSeparators.pend = s.pend := rfl
@[simp] theorem State.placeSeparators_result : s.placeSeparators.result = s.result := rfl
@[simp] theorem State.placeSeparators_errinfo : s.placeSeparators.errinfo = s.errinfo := rfl
@[simp] theorem State.placeSeparators_len : s.placeSeparators.len = s.len := rfl
@[simp] theorem State.placeSeparators_ver : s.placeSeparators.ver = s.ver := rfl
@[simp] theorem State.placeSeparators_cap : s.placeSeparators.cap = s.cap := rfl
@[simp] theorem State.placeSeparators_cwlen : s.placeSeparators.cwlen = s.cwlen := rfl
@[simp] theorem State.placeSeparators_size : s.placeSeparators.size = s.size := rfl
@[simp] theorem State.placeSeparators_fmt : s.placeSeparators.fmt = s.fmt := rfl
@[simp] theorem State.placeSeparators_maskid : s.placeSeparators.maskid = s.maskid := rfl
@[simp] theorem State.placeSeparators_bitcnt : s.placeSeparators.bitcnt = s.bitcnt := rfl
@[simp] theorem State.placeSeparators_pentab : s.placeSeparators.pentab = s.pentab := rfl
@[simp] theorem State.placeSeparators_mem : s.placeSeparators.mem = s.mem := rfl
@[simp] theorem State.placeSeparators_planeM : s.placeSeparators.planeM = s.planeM.setAll (reserveBox (separatorCells s.size.toNat) false) := rfl
@[simp] theorem State.placeSeparators_planeR : s.placeSeparators.planeR = s.planeR.setAll (reserveBox (separatorCells s.size.toNat) true) := rfl
@[simp] theorem State.placeSeparators_planeS : s.placeSeparators.planeS = s.planeS := rfl
@[simp] theorem State.placeSeparators_rom : s.placeSeparators.rom = s.rom := rfl
@[simp] theorem State.placeSeparators_hostQ : s.placeSeparators.hostQ = s.hostQ := rfl
@[simp] theorem State.placeSeparators_readLog : s.placeSeparators.readLog = s.readLog := rfl
@[simp] theorem State.placeSeparators_left : s.placeSeparators.left = s.left := rfl
@[simp] theorem State.placeSeparators_issued : s.placeSeparators.issued = s.issued := rfl

/-! ### State.placeTiming -/

@[simp] theorem State.placeTiming_cfg : s.placeTiming.cfg = s.cfg := rfl
@[simp] theorem State.placeTiming_ctrl : s.placeTiming.ctrl = s.ctrl := rfl
@[simp] theorem State.placeTiming_status : s.placeTiming.status = s.status := rfl
@[simp] theorem State.placeTiming_pend : s.placeTiming.pend = s.pend := rfl
@[simp] theorem State.placeTiming_result : s.placeTiming.result = s.result := rfl
@[simp] theorem State.placeTiming_errinfo : s.placeTiming.errinfo = s.errinfo := rfl
@[simp] theorem State.placeTiming_len : s.placeTiming.len = s.len := rfl
@[simp] theorem State.placeTiming_ver : s.placeTiming.ver = s.ver := rfl
@[simp] theorem State.placeTiming_cap : s.placeTiming.cap = s.cap := rfl
@[simp] theorem State.placeTiming_cwlen : s.placeTiming.cwlen = s.cwlen := rfl
@[simp] theorem State.placeTiming_size : s.placeTiming.size = s.size := rfl
@[simp] theorem State.placeTiming_fmt : s.placeTiming.fmt = s.fmt := rfl
@[simp] theorem State.placeTiming_maskid : s.placeTiming.maskid = s.maskid := rfl
@[simp] theorem State.placeTiming_bitcnt : s.placeTiming.bitcnt = s.bitcnt := rfl
@[simp] theorem State.placeTiming_pentab : s.placeTiming.pentab = s.pentab := rfl
@[simp] theorem State.placeTiming_mem : s.placeTiming.mem = s.mem := rfl
@[simp] theorem State.placeTiming_planeM : s.placeTiming.planeM = s.planeM.setAll (timingWrites s.size.toNat) := rfl
@[simp] theorem State.placeTiming_planeR : s.placeTiming.planeR = s.planeR.setAll (reserveAll (timingWrites s.size.toNat)) := rfl
@[simp] theorem State.placeTiming_planeS : s.placeTiming.planeS = s.planeS := rfl
@[simp] theorem State.placeTiming_rom : s.placeTiming.rom = s.rom := rfl
@[simp] theorem State.placeTiming_hostQ : s.placeTiming.hostQ = s.hostQ := rfl
@[simp] theorem State.placeTiming_readLog : s.placeTiming.readLog = s.readLog := rfl
@[simp] theorem State.placeTiming_left : s.placeTiming.left = s.left := rfl
@[simp] theorem State.placeTiming_issued : s.placeTiming.issued = s.issued := rfl

/-! ### State.placeDark -/

@[simp] theorem State.placeDark_cfg : s.placeDark.cfg = s.cfg := rfl
@[simp] theorem State.placeDark_ctrl : s.placeDark.ctrl = s.ctrl := rfl
@[simp] theorem State.placeDark_status : s.placeDark.status = s.status := rfl
@[simp] theorem State.placeDark_pend : s.placeDark.pend = s.pend := rfl
@[simp] theorem State.placeDark_result : s.placeDark.result = s.result := rfl
@[simp] theorem State.placeDark_errinfo : s.placeDark.errinfo = s.errinfo := rfl
@[simp] theorem State.placeDark_len : s.placeDark.len = s.len := rfl
@[simp] theorem State.placeDark_ver : s.placeDark.ver = s.ver := rfl
@[simp] theorem State.placeDark_cap : s.placeDark.cap = s.cap := rfl
@[simp] theorem State.placeDark_cwlen : s.placeDark.cwlen = s.cwlen := rfl
@[simp] theorem State.placeDark_size : s.placeDark.size = s.size := rfl
@[simp] theorem State.placeDark_fmt : s.placeDark.fmt = s.fmt := rfl
@[simp] theorem State.placeDark_maskid : s.placeDark.maskid = s.maskid := rfl
@[simp] theorem State.placeDark_bitcnt : s.placeDark.bitcnt = s.bitcnt := rfl
@[simp] theorem State.placeDark_pentab : s.placeDark.pentab = s.pentab := rfl
@[simp] theorem State.placeDark_mem : s.placeDark.mem = s.mem := rfl
@[simp] theorem State.placeDark_planeM : s.placeDark.planeM = s.planeM.set (s.size.toNat - 8) 8 true := rfl
@[simp] theorem State.placeDark_planeR : s.placeDark.planeR = s.planeR.set (s.size.toNat - 8) 8 true := rfl
@[simp] theorem State.placeDark_planeS : s.placeDark.planeS = s.planeS := rfl
@[simp] theorem State.placeDark_rom : s.placeDark.rom = s.rom := rfl
@[simp] theorem State.placeDark_hostQ : s.placeDark.hostQ = s.hostQ := rfl
@[simp] theorem State.placeDark_readLog : s.placeDark.readLog = s.readLog := rfl
@[simp] theorem State.placeDark_left : s.placeDark.left = s.left := rfl
@[simp] theorem State.placeDark_issued : s.placeDark.issued = s.issued := rfl

/-! ### State.placeFormat -/

@[simp] theorem State.placeFormat_cfg (l m : Nat) : (s.placeFormat l m).cfg = s.cfg := rfl
@[simp] theorem State.placeFormat_ctrl (l m : Nat) : (s.placeFormat l m).ctrl = s.ctrl := rfl
@[simp] theorem State.placeFormat_status (l m : Nat) : (s.placeFormat l m).status = s.status := rfl
@[simp] theorem State.placeFormat_pend (l m : Nat) : (s.placeFormat l m).pend = s.pend := rfl
@[simp] theorem State.placeFormat_result (l m : Nat) : (s.placeFormat l m).result = s.result := rfl
@[simp] theorem State.placeFormat_errinfo (l m : Nat) : (s.placeFormat l m).errinfo = s.errinfo := rfl
@[simp] theorem State.placeFormat_len (l m : Nat) : (s.placeFormat l m).len = s.len := rfl
@[simp] theorem State.placeFormat_ver (l m : Nat) : (s.placeFormat l m).ver = s.ver := rfl
@[simp] theorem State.placeFormat_cap (l m : Nat) : (s.placeFormat l m).cap = s.cap := rfl
@[simp] theorem State.placeFormat_cwlen (l m : Nat) : (s.placeFormat l m).cwlen = s.cwlen := rfl
@[simp] theorem State.placeFormat_size (l m : Nat) : (s.placeFormat l m).size = s.size := rfl
@[simp] theorem State.placeFormat_fmt (l m : Nat) : (s.placeFormat l m).fmt = fmtWord l m := rfl
@[simp] theorem State.placeFormat_maskid (l m : Nat) : (s.placeFormat l m).maskid = s.maskid := rfl
@[simp] theorem State.placeFormat_bitcnt (l m : Nat) : (s.placeFormat l m).bitcnt = s.bitcnt := rfl
@[simp] theorem State.placeFormat_pentab (l m : Nat) : (s.placeFormat l m).pentab = s.pentab := rfl
@[simp] theorem State.placeFormat_mem (l m : Nat) : (s.placeFormat l m).mem = s.mem := rfl
@[simp] theorem State.placeFormat_planeM (l m : Nat) : (s.placeFormat l m).planeM = s.planeM.setAll (fmtWrites s.cfg.bitOrder s.size.toNat (fmtWord l m)) := by rw [State.placeFormat]
@[simp] theorem State.placeFormat_planeR (l m : Nat) : (s.placeFormat l m).planeR = s.planeR.setAll (reserveAll (fmtWrites s.cfg.bitOrder s.size.toNat (fmtWord l m))) := by rw [State.placeFormat]
@[simp] theorem State.placeFormat_planeS (l m : Nat) : (s.placeFormat l m).planeS = s.planeS := rfl
@[simp] theorem State.placeFormat_rom (l m : Nat) : (s.placeFormat l m).rom = s.rom := rfl
@[simp] theorem State.placeFormat_hostQ (l m : Nat) : (s.placeFormat l m).hostQ = s.hostQ := rfl
@[simp] theorem State.placeFormat_readLog (l m : Nat) : (s.placeFormat l m).readLog = s.readLog := rfl
@[simp] theorem State.placeFormat_left (l m : Nat) : (s.placeFormat l m).left = s.left := rfl
@[simp] theorem State.placeFormat_issued (l m : Nat) : (s.placeFormat l m).issued = s.issued := rfl

/-! ### State.putScore -/

@[simp] theorem State.putScore_cfg (m : Nat) (res : Plane × Nat) : (s.putScore m res).cfg = s.cfg := rfl
@[simp] theorem State.putScore_ctrl (m : Nat) (res : Plane × Nat) : (s.putScore m res).ctrl = s.ctrl := rfl
@[simp] theorem State.putScore_status (m : Nat) (res : Plane × Nat) : (s.putScore m res).status = s.status := rfl
@[simp] theorem State.putScore_pend (m : Nat) (res : Plane × Nat) : (s.putScore m res).pend = s.pend := rfl
@[simp] theorem State.putScore_result (m : Nat) (res : Plane × Nat) : (s.putScore m res).result = BitVec.ofNat 32 res.2 := rfl
@[simp] theorem State.putScore_errinfo (m : Nat) (res : Plane × Nat) : (s.putScore m res).errinfo = s.errinfo := rfl
@[simp] theorem State.putScore_len (m : Nat) (res : Plane × Nat) : (s.putScore m res).len = s.len := rfl
@[simp] theorem State.putScore_ver (m : Nat) (res : Plane × Nat) : (s.putScore m res).ver = s.ver := rfl
@[simp] theorem State.putScore_cap (m : Nat) (res : Plane × Nat) : (s.putScore m res).cap = s.cap := rfl
@[simp] theorem State.putScore_cwlen (m : Nat) (res : Plane × Nat) : (s.putScore m res).cwlen = s.cwlen := rfl
@[simp] theorem State.putScore_size (m : Nat) (res : Plane × Nat) : (s.putScore m res).size = s.size := rfl
@[simp] theorem State.putScore_fmt (m : Nat) (res : Plane × Nat) : (s.putScore m res).fmt = s.fmt := rfl
@[simp] theorem State.putScore_maskid (m : Nat) (res : Plane × Nat) : (s.putScore m res).maskid = s.maskid := rfl
@[simp] theorem State.putScore_bitcnt (m : Nat) (res : Plane × Nat) : (s.putScore m res).bitcnt = s.bitcnt := rfl
@[simp] theorem State.putScore_pentab (m : Nat) (res : Plane × Nat) : (s.putScore m res).pentab = s.pentab.setIfInBounds m (BitVec.ofNat 16 res.2) := rfl
@[simp] theorem State.putScore_mem (m : Nat) (res : Plane × Nat) : (s.putScore m res).mem = s.mem := rfl
@[simp] theorem State.putScore_planeM (m : Nat) (res : Plane × Nat) : (s.putScore m res).planeM = s.planeM := rfl
@[simp] theorem State.putScore_planeR (m : Nat) (res : Plane × Nat) : (s.putScore m res).planeR = s.planeR := rfl
@[simp] theorem State.putScore_planeS (m : Nat) (res : Plane × Nat) : (s.putScore m res).planeS = res.1 := rfl
@[simp] theorem State.putScore_rom (m : Nat) (res : Plane × Nat) : (s.putScore m res).rom = s.rom := rfl
@[simp] theorem State.putScore_hostQ (m : Nat) (res : Plane × Nat) : (s.putScore m res).hostQ = s.hostQ := rfl
@[simp] theorem State.putScore_readLog (m : Nat) (res : Plane × Nat) : (s.putScore m res).readLog = s.readLog := rfl
@[simp] theorem State.putScore_left (m : Nat) (res : Plane × Nat) : (s.putScore m res).left = s.left := rfl
@[simp] theorem State.putScore_issued (m : Nat) (res : Plane × Nat) : (s.putScore m res).issued = s.issued := rfl

/-! ### State.putSelection -/

@[simp] theorem State.putSelection_cfg (res : List (Plane × Nat)) : (s.putSelection res).cfg = s.cfg := rfl
@[simp] theorem State.putSelection_ctrl (res : List (Plane × Nat)) : (s.putSelection res).ctrl = s.ctrl := rfl
@[simp] theorem State.putSelection_status (res : List (Plane × Nat)) : (s.putSelection res).status = s.status := rfl
@[simp] theorem State.putSelection_pend (res : List (Plane × Nat)) : (s.putSelection res).pend = s.pend := rfl
@[simp] theorem State.putSelection_result (res : List (Plane × Nat)) : (s.putSelection res).result = s.result := rfl
@[simp] theorem State.putSelection_errinfo (res : List (Plane × Nat)) : (s.putSelection res).errinfo = s.errinfo := rfl
@[simp] theorem State.putSelection_len (res : List (Plane × Nat)) : (s.putSelection res).len = s.len := rfl
@[simp] theorem State.putSelection_ver (res : List (Plane × Nat)) : (s.putSelection res).ver = s.ver := rfl
@[simp] theorem State.putSelection_cap (res : List (Plane × Nat)) : (s.putSelection res).cap = s.cap := rfl
@[simp] theorem State.putSelection_cwlen (res : List (Plane × Nat)) : (s.putSelection res).cwlen = s.cwlen := rfl
@[simp] theorem State.putSelection_size (res : List (Plane × Nat)) : (s.putSelection res).size = s.size := rfl
@[simp] theorem State.putSelection_fmt (res : List (Plane × Nat)) : (s.putSelection res).fmt = s.fmt := rfl
@[simp] theorem State.putSelection_maskid (res : List (Plane × Nat)) : (s.putSelection res).maskid = BitVec.ofNat 3 (bestMask (res.map Prod.snd)) := rfl
@[simp] theorem State.putSelection_bitcnt (res : List (Plane × Nat)) : (s.putSelection res).bitcnt = s.bitcnt := rfl
@[simp] theorem State.putSelection_pentab (res : List (Plane × Nat)) : (s.putSelection res).pentab = penaltyTable (res.map Prod.snd) := rfl
@[simp] theorem State.putSelection_mem (res : List (Plane × Nat)) : (s.putSelection res).mem = s.mem := rfl
@[simp] theorem State.putSelection_planeM (res : List (Plane × Nat)) : (s.putSelection res).planeM = s.planeM := rfl
@[simp] theorem State.putSelection_planeR (res : List (Plane × Nat)) : (s.putSelection res).planeR = s.planeR := rfl
@[simp] theorem State.putSelection_planeS (res : List (Plane × Nat)) : (s.putSelection res).planeS = (res.map Prod.fst).getLastD s.planeS := rfl
@[simp] theorem State.putSelection_rom (res : List (Plane × Nat)) : (s.putSelection res).rom = s.rom := rfl
@[simp] theorem State.putSelection_hostQ (res : List (Plane × Nat)) : (s.putSelection res).hostQ = s.hostQ := rfl
@[simp] theorem State.putSelection_readLog (res : List (Plane × Nat)) : (s.putSelection res).readLog = s.readLog := rfl
@[simp] theorem State.putSelection_left (res : List (Plane × Nat)) : (s.putSelection res).left = s.left := rfl
@[simp] theorem State.putSelection_issued (res : List (Plane × Nat)) : (s.putSelection res).issued = s.issued := rfl

/-! ### State.takeEvent -/

@[simp] theorem State.takeEvent_cfg (es : List HostEvent) : (s.takeEvent es).cfg = s.cfg := rfl
@[simp] theorem State.takeEvent_ctrl (es : List HostEvent) : (s.takeEvent es).ctrl = s.ctrl := rfl
@[simp] theorem State.takeEvent_status (es : List HostEvent) : (s.takeEvent es).status = s.status := rfl
@[simp] theorem State.takeEvent_pend (es : List HostEvent) : (s.takeEvent es).pend = s.pend := rfl
@[simp] theorem State.takeEvent_result (es : List HostEvent) : (s.takeEvent es).result = s.result := rfl
@[simp] theorem State.takeEvent_errinfo (es : List HostEvent) : (s.takeEvent es).errinfo = s.errinfo := rfl
@[simp] theorem State.takeEvent_len (es : List HostEvent) : (s.takeEvent es).len = s.len := rfl
@[simp] theorem State.takeEvent_ver (es : List HostEvent) : (s.takeEvent es).ver = s.ver := rfl
@[simp] theorem State.takeEvent_cap (es : List HostEvent) : (s.takeEvent es).cap = s.cap := rfl
@[simp] theorem State.takeEvent_cwlen (es : List HostEvent) : (s.takeEvent es).cwlen = s.cwlen := rfl
@[simp] theorem State.takeEvent_size (es : List HostEvent) : (s.takeEvent es).size = s.size := rfl
@[simp] theorem State.takeEvent_fmt (es : List HostEvent) : (s.takeEvent es).fmt = s.fmt := rfl
@[simp] theorem State.takeEvent_maskid (es : List HostEvent) : (s.takeEvent es).maskid = s.maskid := rfl
@[simp] theorem State.takeEvent_bitcnt (es : List HostEvent) : (s.takeEvent es).bitcnt = s.bitcnt := rfl
@[simp] theorem State.takeEvent_pentab (es : List HostEvent) : (s.takeEvent es).pentab = s.pentab := rfl
@[simp] theorem State.takeEvent_mem (es : List HostEvent) : (s.takeEvent es).mem = s.mem := rfl
@[simp] theorem State.takeEvent_planeM (es : List HostEvent) : (s.takeEvent es).planeM = s.planeM := rfl
@[simp] theorem State.takeEvent_planeR (es : List HostEvent) : (s.takeEvent es).planeR = s.planeR := rfl
@[simp] theorem State.takeEvent_planeS (es : List HostEvent) : (s.takeEvent es).planeS = s.planeS := rfl
@[simp] theorem State.takeEvent_rom (es : List HostEvent) : (s.takeEvent es).rom = s.rom := rfl
@[simp] theorem State.takeEvent_hostQ (es : List HostEvent) : (s.takeEvent es).hostQ = es := rfl
@[simp] theorem State.takeEvent_readLog (es : List HostEvent) : (s.takeEvent es).readLog = s.readLog := rfl
@[simp] theorem State.takeEvent_left (es : List HostEvent) : (s.takeEvent es).left = s.left - 1 := rfl
@[simp] theorem State.takeEvent_issued (es : List HostEvent) : (s.takeEvent es).issued = s.issued := rfl

/-! ### State.withHost -/

@[simp] theorem State.withHost_cfg (es : List HostEvent) : (s.withHost es).cfg = s.cfg := rfl
@[simp] theorem State.withHost_ctrl (es : List HostEvent) : (s.withHost es).ctrl = s.ctrl := rfl
@[simp] theorem State.withHost_status (es : List HostEvent) : (s.withHost es).status = s.status := rfl
@[simp] theorem State.withHost_pend (es : List HostEvent) : (s.withHost es).pend = s.pend := rfl
@[simp] theorem State.withHost_result (es : List HostEvent) : (s.withHost es).result = s.result := rfl
@[simp] theorem State.withHost_errinfo (es : List HostEvent) : (s.withHost es).errinfo = s.errinfo := rfl
@[simp] theorem State.withHost_len (es : List HostEvent) : (s.withHost es).len = s.len := rfl
@[simp] theorem State.withHost_ver (es : List HostEvent) : (s.withHost es).ver = s.ver := rfl
@[simp] theorem State.withHost_cap (es : List HostEvent) : (s.withHost es).cap = s.cap := rfl
@[simp] theorem State.withHost_cwlen (es : List HostEvent) : (s.withHost es).cwlen = s.cwlen := rfl
@[simp] theorem State.withHost_size (es : List HostEvent) : (s.withHost es).size = s.size := rfl
@[simp] theorem State.withHost_fmt (es : List HostEvent) : (s.withHost es).fmt = s.fmt := rfl
@[simp] theorem State.withHost_maskid (es : List HostEvent) : (s.withHost es).maskid = s.maskid := rfl
@[simp] theorem State.withHost_bitcnt (es : List HostEvent) : (s.withHost es).bitcnt = s.bitcnt := rfl
@[simp] theorem State.withHost_pentab (es : List HostEvent) : (s.withHost es).pentab = s.pentab := rfl
@[simp] theorem State.withHost_mem (es : List HostEvent) : (s.withHost es).mem = s.mem := rfl
@[simp] theorem State.withHost_planeM (es : List HostEvent) : (s.withHost es).planeM = s.planeM := rfl
@[simp] theorem State.withHost_planeR (es : List HostEvent) : (s.withHost es).planeR = s.planeR := rfl
@[simp] theorem State.withHost_planeS (es : List HostEvent) : (s.withHost es).planeS = s.planeS := rfl
@[simp] theorem State.withHost_rom (es : List HostEvent) : (s.withHost es).rom = s.rom := rfl
@[simp] theorem State.withHost_hostQ (es : List HostEvent) : (s.withHost es).hostQ = es := rfl
@[simp] theorem State.withHost_readLog (es : List HostEvent) : (s.withHost es).readLog = s.readLog := rfl
@[simp] theorem State.withHost_left (es : List HostEvent) : (s.withHost es).left = s.left := rfl
@[simp] theorem State.withHost_issued (es : List HostEvent) : (s.withHost es).issued = s.issued := rfl

/-! ### State.withFetchWord -/

@[simp] theorem State.withFetchWord_cfg (n w : Nat) : (s.withFetchWord n w).cfg = s.cfg := rfl
@[simp] theorem State.withFetchWord_ctrl (n w : Nat) : (s.withFetchWord n w).ctrl = s.ctrl := rfl
@[simp] theorem State.withFetchWord_status (n w : Nat) : (s.withFetchWord n w).status = s.status := rfl
@[simp] theorem State.withFetchWord_pend (n w : Nat) : (s.withFetchWord n w).pend = some (BitVec.ofNat 32 (w % 2 ^ n)) := rfl
@[simp] theorem State.withFetchWord_result (n w : Nat) : (s.withFetchWord n w).result = s.result := rfl
@[simp] theorem State.withFetchWord_errinfo (n w : Nat) : (s.withFetchWord n w).errinfo = s.errinfo := rfl
@[simp] theorem State.withFetchWord_len (n w : Nat) : (s.withFetchWord n w).len = s.len := rfl
@[simp] theorem State.withFetchWord_ver (n w : Nat) : (s.withFetchWord n w).ver = s.ver := rfl
@[simp] theorem State.withFetchWord_cap (n w : Nat) : (s.withFetchWord n w).cap = s.cap := rfl
@[simp] theorem State.withFetchWord_cwlen (n w : Nat) : (s.withFetchWord n w).cwlen = s.cwlen := rfl
@[simp] theorem State.withFetchWord_size (n w : Nat) : (s.withFetchWord n w).size = s.size := rfl
@[simp] theorem State.withFetchWord_fmt (n w : Nat) : (s.withFetchWord n w).fmt = s.fmt := rfl
@[simp] theorem State.withFetchWord_maskid (n w : Nat) : (s.withFetchWord n w).maskid = s.maskid := rfl
@[simp] theorem State.withFetchWord_bitcnt (n w : Nat) : (s.withFetchWord n w).bitcnt = s.bitcnt := rfl
@[simp] theorem State.withFetchWord_pentab (n w : Nat) : (s.withFetchWord n w).pentab = s.pentab := rfl
@[simp] theorem State.withFetchWord_mem (n w : Nat) : (s.withFetchWord n w).mem = s.mem := rfl
@[simp] theorem State.withFetchWord_planeM (n w : Nat) : (s.withFetchWord n w).planeM = s.planeM := rfl
@[simp] theorem State.withFetchWord_planeR (n w : Nat) : (s.withFetchWord n w).planeR = s.planeR := rfl
@[simp] theorem State.withFetchWord_planeS (n w : Nat) : (s.withFetchWord n w).planeS = s.planeS := rfl
@[simp] theorem State.withFetchWord_rom (n w : Nat) : (s.withFetchWord n w).rom = s.rom := rfl
@[simp] theorem State.withFetchWord_hostQ (n w : Nat) : (s.withFetchWord n w).hostQ = s.hostQ := rfl
@[simp] theorem State.withFetchWord_readLog (n w : Nat) : (s.withFetchWord n w).readLog = s.readLog := rfl
@[simp] theorem State.withFetchWord_left (n w : Nat) : (s.withFetchWord n w).left = 0 := rfl
@[simp] theorem State.withFetchWord_issued (n w : Nat) : (s.withFetchWord n w).issued = s.issued := rfl

end Sys2Proof.Machine
end

