-- ==== Sys2Proof/Laws/Streams.lean ====
section
/-! SUPPORT. Lengths of the streams the commands write: packed payload, data codewords, generator and remainder. -/

namespace Sys2Proof.Machine

@[simp] theorem bitsMsbFirst_length (n x : Nat) : (bitsMsbFirst n x).length = n := by simp [bitsMsbFirst]

@[simp] theorem packBytes_length (n : Nat) (bits : List Bool) : (packBytes n bits).length = n := by
  induction n generalizing bits with
  | zero => rfl
  | succ n ih => simp [packBytes, ih]

/-- The stream of L payload bytes has 8 L + 16 bits (R140). -/
theorem streamBits_length (p : List Byte) : (streamBits p).length = 8 * p.length + 16 := by
  have h : (p.flatMap fun b => bitsMsbFirst 8 b.toNat).length = 8 * p.length := by
    induction p with
    | nil => rfl
    | cons b p ih => simp [List.flatMap_cons, ih]; omega
  simp only [streamBits, List.length_append, bitsMsbFirst_length, h]
  omega

/-- The packed stream of L payload bytes has L + 2 bytes (R141). -/
theorem packed_length (p : List Byte) : (packMsbFirst (streamBits p)).length = p.length + 2 := by
  rw [packMsbFirst, packBytes_length, streamBits_length]
  omega

/-- The data codewords of a capacity of d bytes are d bytes (R142, R143). -/
theorem dataCodewords_length (d : Nat) (p : List Byte) : (dataCodewords d p).length = d := by
  simp only [dataCodewords, List.length_take, List.length_append, List.length_map, List.length_range, packed_length]
  omega

@[simp] theorem xorPoly_length (p q : List Byte) : (xorPoly p q).length = min p.length q.length := by simp [xorPoly]

@[simp] theorem scale_length (t : GfRom) (c : Byte) (p : List Byte) : (t.scale c p).length = p.length := by simp [GfRom.scale]

/-- One factor raises the degree by one (R152). -/
theorem timesFactor_length (t : GfRom) (g : List Byte) (i : Nat) : (t.timesFactor g i).length = g.length + 1 := by
  simp [GfRom.timesFactor]

/-- The generator of degree n has n + 1 coefficients (R151). -/
theorem buildGen_length (t : GfRom) (n : Nat) : (t.buildGen n).length = n + 1 := by
  induction n with
  | zero => rfl
  | succ n ih =>
    rw [GfRom.buildGen] at ih ⊢
    rw [List.range_succ, List.foldl_append]
    simp only [List.foldl_cons, List.foldl_nil, timesFactor_length, ih]

theorem divideStep_length (t : GfRom) {g rem : List Byte} (x : Byte) (h : rem.length = g.length - 1) :
    (t.divideStep g rem x).length = g.length - 1 := by
  simp only [GfRom.divideStep, xorPoly_length, scale_length, List.length_append, List.length_drop, List.length_tail,
    List.length_cons, List.length_nil, h]
  omega

/-- The remainder by a generator of n + 1 coefficients has n bytes, whatever the data (R154). -/
theorem remainder_length (t : GfRom) (data g : List Byte) : (t.remainder data g).length = g.length - 1 := by
  rw [GfRom.remainder]
  suffices H : ∀ rem : List Byte, rem.length = g.length - 1 → (data.foldl (t.divideStep g) rem).length = g.length - 1 by
    exact H _ (by simp)
  induction data with
  | nil => exact fun rem h => h
  | cons x data ih => exact fun rem h => ih _ (divideStep_length t x h)

@[simp] theorem codewordBits_length (cw : List Byte) : (codewordBits cw).length = 8 * cw.length := by
  induction cw with
  | nil => rfl
  | cons b cw ih =>
    have h : codewordBits (b :: cw) = bitsMsbFirst 8 b.toNat ++ codewordBits cw := by simp [codewordBits]
    rw [h, List.length_append, bitsMsbFirst_length, ih, List.length_cons]
    omega

end Sys2Proof.Machine
end

