-- ==== Sys2Proof/Tests/Slice0.lean ====
section
/-! SUPPORT. Tests of the model against the spec's own examples and vectors (95_test_vectors.md, the examples of each command's rule),
and for every statement with hypotheses a state and operands that meet them. Every expected value is the spec's. -/

namespace Sys2Proof.Tests

open Sys2Proof.Machine Sys2Proof.Claims

/-! ### Helpers -/

/-- What `f` sees after a command, none when the command does not answer a next state. -/
def after {α : Type} (i : Instr) (s : State) (f : State → α) : Option α :=
  match exec i s with
  | .next t => some (f t)
  | .fault _ => none
  | .refused _ => none

/-- The outcome is a next state. -/
def isNext : Host.Outcome State Fault Refusal → Bool
  | .next _ => true
  | .fault _ => false
  | .refused _ => false

/-- The fault of an outcome. -/
def faultOf : Host.Outcome State Fault Refusal → Option Fault
  | .next _ => none
  | .fault f => some f
  | .refused _ => none

/-- The fault of a Host access. -/
def accessFault : Except Fault State → Option Fault
  | .ok _ => none
  | .error f => some f

theorem exists_next {o : Host.Outcome State Fault Refusal} (h : isNext o = true) : ∃ t, o = .next t := by
  cases o with
  | next t => exact ⟨t, rfl⟩
  | fault f => simp [isNext] at h
  | refused r => simp [isNext] at h

theorem exists_next_of_after {α : Type} {i : Instr} {s : State} {f : State → α} {x : α} (h : after i s f = some x) :
    ∃ t, exec i s = .next t := by
  unfold after at h
  cases hx : exec i s with
  | next t => exact ⟨t, rfl⟩
  | fault g => simp [hx] at h
  | refused r => simp [hx] at h

theorem eq_fault {o : Host.Outcome State Fault Refusal} {f : Fault} (h : faultOf o = some f) : o = .fault f := by
  cases o with
  | next t => simp [faultOf] at h
  | fault g => simpa [faultOf] using h
  | refused r => simp [faultOf] at h

theorem eq_fault_inv {o : Host.Outcome State Fault Refusal} {f : Fault} (h : o = .fault f) : faultOf o = some f := by
  rw [h]
  rfl

/-- Reset, then `ldpay`: LEN and the payload bytes. -/
def withPayload (p : List Byte) (s : State) : State :=
  { s with len := BitVec.ofNat 32 p.length, mem := s.mem.writeBytes 0x100 p }

/-- Reset, then `ldcw` and CWLEN. -/
def withCodewords (cw : List Byte) (s : State) : State :=
  { s with cwlen := BitVec.ofNat 32 cw.length, mem := s.mem.writeBytes 0x200 cw }

/-- A fresh matrix of version v: all light, nothing reserved (R171). -/
def fresh (v : Nat) : State := State.reset.initMatrix v

/-- A command word pending, its Engine step due after `n` Host events. -/
def pending (word : Word) (n : Nat) : State := { State.reset with pend := some word, left := n }

/-- The policy TRUNCATE. -/
def truncating (s : State) : State := { s with cfg := { s.cfg with overflow := .truncate } }

/-- "HELLO" -/
def hello : List Byte := [0x48#8, 0x45#8, 0x4C#8, 0x4C#8, 0x4F#8]

/-- n bytes "A". -/
def manyA (n : Nat) : List Byte := List.replicate n 0x41#8

/-- The modules of row r from column c on. -/
def rowBits (p : Plane) (r c n : Nat) : List (Option Bool) := (List.range n).map fun k => p.get r (c + k)

/-- Written cells from a picture's digits. -/
def bits (l : List Nat) : List (Option Bool) := l.map fun x => some (x == 1)

/-- CW or GEN bytes from a window offset on. -/
def bytesAt (s : State) (a n : Nat) : Option (List Byte) := s.mem.readBytes a n

/-! ### WellFormed refuses an operand out of range (R92) -/

theorem test_wellFormed_level : (Instr.encode 4#8).wellFormed = false := by decide
theorem test_wellFormed_mask : (Instr.mskapply 8#8).wellFormed = false := by decide
theorem test_wellFormed_version_low : (Instr.mxinit 0#8).wellFormed = false := by decide
theorem test_wellFormed_version_high : (Instr.capof 6#8).wellFormed = false := by decide
theorem test_wellFormed_degree : (Instr.rsgen 33#8).wellFormed = false := by decide
theorem test_wellFormed_streamLength : (Instr.rsenc 225#8 32#8).wellFormed = false := by decide
theorem test_wellFormed_fmtbits_level : (Instr.fmtbits 4#8 0#8).wellFormed = false := by decide
theorem test_wellFormed_mxfmt_mask : (Instr.mxfmt 0#8 8#8).wellFormed = false := by decide
theorem test_wellFormed_accepts :
    (Instr.encode 3#8).wellFormed = true ∧ (Instr.rsenc 224#8 32#8).wellFormed = true ∧ (Instr.mxinit 5#8).wellFormed = true := by
  decide

/-! ### Decoding, by words written out from the encoding of R90, R92 and R98 (95_test_vectors.md 2.1) -/

theorem test_decode_nop : decode 0b00000000000000000000000000000000#32 = .ok .nop := by decide
theorem test_decode_gfmul : decode 0b00000000110010100101001100000001#32 = .ok (.gfmul 0x53#8 0xCA#8) := by decide
theorem test_decode_gfdiv : decode 0b00000000110010101000111100000010#32 = .ok (.gfdiv 0x8F#8 0xCA#8) := by decide
theorem test_decode_fmtbits : decode 0b00000000000001000000000100001000#32 = .ok (.fmtbits 1#8 4#8) := by decide
theorem test_decode_verfor : decode 0b00000000000000000000000000010000#32 = .ok .verfor := by decide
theorem test_decode_capof : decode 0b00000000000000000000010000010001#32 = .ok (.capof 4#8) := by decide
theorem test_decode_denc : decode 0b00000000000000000000000000100000#32 = .ok .denc := by decide
theorem test_decode_rsgen : decode 0b00000000000000000000011100110000#32 = .ok (.rsgen 7#8) := by decide
theorem test_decode_rsenc : decode 0b00000000000001110001001100110001#32 = .ok (.rsenc 19#8 7#8) := by decide
theorem test_decode_mxinit : decode 0b00000000000000000000000101000000#32 = .ok (.mxinit 1#8) := by decide
theorem test_decode_mxfind : decode 0b00000000000000000000000001000001#32 = .ok .mxfind := by decide
theorem test_decode_mxsep : decode 0b00000000000000000000000001000010#32 = .ok .mxsep := by decide
theorem test_decode_mxtime : decode 0b00000000000000000000000001000011#32 = .ok .mxtime := by decide
theorem test_decode_mxdark : decode 0b00000000000000000000000001000100#32 = .ok .mxdark := by decide
theorem test_decode_mxfmt : decode 0b00000000000001000000000101000101#32 = .ok (.mxfmt 1#8 4#8) := by decide
theorem test_decode_mxdata : decode 0b00000000000000000000000001000110#32 = .ok .mxdata := by decide
theorem test_decode_mskapply : decode 0b00000000000000000000010001010000#32 = .ok (.mskapply 4#8) := by decide
theorem test_decode_mskscore : decode 0b00000000000000000000010101010001#32 = .ok (.mskscore 5#8) := by decide
theorem test_decode_penalty : decode 0b00000000000000000000000001010010#32 = .ok .penalty := by decide
theorem test_decode_msksel : decode 0b00000000000000000000000001010011#32 = .ok .msksel := by decide
theorem test_decode_encode : decode 0b00000000000000000000000101100000#32 = .ok (.encode 1#8) := by decide

theorem test_decode_unassigned_opcode : decode 0x00000003#32 = .error .unassignedOpcode := by decide
theorem test_decode_nop_with_C : decode 0x01000000#32 = .error .nonzeroUnusedField := by decide
theorem test_decode_verfor_with_A : decode 0x00000110#32 = .error .nonzeroUnusedField := by decide
theorem test_decode_mxinit_with_B : decode 0x00010140#32 = .error .nonzeroUnusedField := by decide
theorem test_decode_gfmul_with_C : decode 0xFF010101#32 = .error .nonzeroUnusedField := by decide

/-- The table's numbering is the word's own (R90). -/
theorem test_decodeTableWord : decodeTableWord 32 0x00CA5301 = some (.gfmul 0x53#8 0xCA#8) := by decide

/-- A level name assembles to its ordinal (R98). -/
theorem test_encode_level_name : encode (.mxfmt LevelName.M.ordinal 4#8) = 0x00040145#32 := by decide

/-! ### Commands, by the spec's examples and vectors (2.2 to 2.8) -/

theorem test_nop : after .nop State.reset (fun t => (t.statusWord, t.readReg .result)) = some (2#32, some 0#32) := by decide

theorem test_gfmul : after (.gfmul 0x53#8 0xCA#8) State.reset (·.result) = some 0x8F#32 := by decide
theorem test_gfmul_reduces : after (.gfmul 0x02#8 0x80#8) State.reset (·.result) = some 0x1D#32 := by decide

theorem test_gfdiv : after (.gfdiv 0x53#8 0xCA#8) State.reset (·.result) = some 0x6D#32 := by decide
theorem test_gfdiv_zero_by_zero :
    after (.gfdiv 0#8 0#8) State.reset (fun t => (t.statusWord, t.errinfo)) = some (0x106#32, 0x2#32) := by decide

theorem test_fmtbits : after (.fmtbits 1#8 4#8) State.reset (·.result) = some 0x662F#32 := by decide
theorem test_fmtbits_last : after (.fmtbits 3#8 7#8) State.reset (·.result) = some 0x2BED#32 := by decide

theorem test_verfor_breakpoint : after .verfor { State.reset with len := 78#32 } (·.ver) = some 4#32 := by decide
theorem test_verfor_longest : after .verfor { State.reset with len := 0xFFFFFFFF#32 } (·.ver) = some 5#32 := by decide

theorem test_capof : after (.capof 4#8) State.reset (·.cap) = some 0x1450#16 := by decide
theorem test_capof_none : after (.capof 6#8) State.reset (fun t => (t.statusWord, t.errinfo, t.cap)) =
    some (0x406#32, 0x611#32, 0#16) := by decide

theorem test_denc_hello :
    after .denc { withPayload hello State.reset with ver := 1#32 } (fun t => (t.cwlen, bytesAt t 0x200 19)) =
      some (19#32, some [0x40#8, 0x54#8, 0x84#8, 0x54#8, 0xC4#8, 0xC4#8, 0xF0#8, 0xEC#8, 0x11#8, 0xEC#8, 0x11#8, 0xEC#8,
        0x11#8, 0xEC#8, 0x11#8, 0xEC#8, 0x11#8, 0xEC#8, 0x11#8]) := by decide +kernel
theorem test_denc_truncates :
    after .denc (truncating { withPayload ((List.range 107).map (BitVec.ofNat 8)) State.reset with ver := 5#32 })
      (fun t => (bytesAt t 0x200 4, bytesAt t (0x200 + 104) 4, t.cw 108)) =
      some (some [0x46#8, 0xB0#8, 0x00#8, 0x10#8], some [0x66#8, 0x76#8, 0x86#8, 0x96#8], none) := by decide +kernel

theorem test_rsgen :
    after (.rsgen 7#8) State.reset (fun t => (bytesAt t 0x300 8, t.gen 8)) =
      some (some [0x01#8, 0x7F#8, 0x7A#8, 0x9A#8, 0xA4#8, 0x0B#8, 0x44#8, 0x75#8], none) := by decide +kernel
theorem test_rsgen_too_long : after (.rsgen 33#8) State.reset (·.statusWord) = some 0x406#32 := by decide

theorem test_rsenc_iso_example :
    after (.rsenc 16#8 10#8) (withCodewords [0x10#8, 0x20#8, 0x0C#8, 0x56#8, 0x61#8, 0x80#8, 0xEC#8, 0x11#8, 0xEC#8, 0x11#8,
        0xEC#8, 0x11#8, 0xEC#8, 0x11#8, 0xEC#8, 0x11#8] State.reset) (fun t => (t.cwlen, bytesAt t 0x210 10)) =
      some (26#32, some [0xA5#8, 0x24#8, 0xD4#8, 0xC1#8, 0xED#8, 0x36#8, 0xC7#8, 0x87#8, 0x2C#8, 0x55#8]) := by decide +kernel
theorem test_rsenc_three_two :
    after (.rsenc 3#8 2#8) (withCodewords [1#8, 2#8, 3#8] State.reset) (fun t => (t.cwlen, bytesAt t 0x203 2)) =
      some (5#32, some [4#8, 4#8]) := by decide +kernel

theorem test_mxinit :
    after (.mxinit 1#8) State.reset (fun t => (t.size, t.planeM.get 36 36, t.planeR.get 0 0)) =
      some (21#6, some false, some false) := by decide +kernel
theorem test_mxinit_none : after (.mxinit 6#8) State.reset (fun t => (t.statusWord, t.errinfo)) =
    some (0x406#32, 0x640#32) := by decide

theorem test_mxfind_rings :
    after .mxfind (fresh 1) (fun t => (rowBits t.planeM 0 0 8, rowBits t.planeM 1 0 8, rowBits t.planeM 2 0 8)) =
      some (bits [1, 1, 1, 1, 1, 1, 1, 0], bits [1, 0, 0, 0, 0, 0, 1, 0], bits [1, 0, 1, 1, 1, 0, 1, 0]) := by decide +kernel
theorem test_mxfind_reserves_margin :
    after .mxfind (fresh 1) (fun t => (rowBits t.planeR 7 0 9, rowBits t.planeM 14 0 8)) =
      some (bits [1, 1, 1, 1, 1, 1, 1, 1, 0], bits [1, 1, 1, 1, 1, 1, 1, 0]) := by decide +kernel

theorem test_mxsep :
    after .mxsep (fresh 1) (fun t => (rowBits t.planeR 7 12 9, rowBits t.planeR 13 0 9, rowBits t.planeR 20 6 3)) =
      some (bits [0, 1, 1, 1, 1, 1, 1, 1, 1], bits [1, 1, 1, 1, 1, 1, 1, 1, 0], bits [0, 1, 0]) := by decide +kernel

theorem test_mxtime :
    after .mxtime (fresh 1) (fun t => (rowBits t.planeM 6 7 7, t.planeM.get 12 6, t.planeR.get 9 6)) =
      some (bits [0, 1, 0, 1, 0, 1, 0], some true, some true) := by decide +kernel

theorem test_mxdark_first_and_last :
    after .mxdark (fresh 1) (fun t => (t.planeM.get 13 8, t.planeR.get 13 8)) = some (some true, some true) ∧
      after .mxdark (fresh 5) (fun t => t.planeM.get 29 8) = some (some true) := by decide +kernel

theorem test_mxfmt_copies :
    after (.mxfmt 1#8 0#8) (fresh 1)
      (fun t => (t.fmt, rowBits t.planeM 8 0 9, rowBits t.planeM 8 14 7, t.planeM.get 20 8, t.planeM.get 17 8)) =
      some (0x77C4#15, bits [1, 1, 1, 0, 1, 1, 0, 1, 1], bits [1, 0, 0, 0, 1, 0, 0], some true, some false) := by decide +kernel
theorem test_mxfmt_order_of_checks :
    after (.mxfmt 4#8 0#8) State.reset (·.statusWord) = some 0x406#32 ∧
      after (.mxfmt 3#8 0#8) State.reset (·.statusWord) = some 0x506#32 := by decide

theorem test_mxdata_order :
    after .mxdata (withCodewords [0xA0#8] (fresh 1))
      (fun t => (t.bitcnt, t.planeM.get 20 20, t.planeM.get 20 19, t.planeM.get 19 20, t.planeM.get 19 19)) =
      some (8#12, some true, some false, some true, some false) := by decide +kernel
theorem test_mxdata_too_long :
    after .mxdata { fresh 1 with cwlen := 257#32 } (·.statusWord) = some 0x406#32 := by decide +kernel

theorem test_mskapply :
    after (.mskapply 1#8) (fresh 1) (fun t => (t.planeM.get 0 20, t.planeM.get 1 20, t.planeM.get 0 21)) =
      some (some true, some false, some false) := by decide +kernel
theorem test_mskapply_none : after (.mskapply 8#8) State.reset (·.statusWord) = some 0x406#32 := by decide

theorem test_mskscore :
    after (.mskscore 5#8) (fresh 1) (fun t => (t.result, t.penaltyOf 5, t.penaltyOf 4)) = some (278#32, 278#16, 0#16) := by
  decide +kernel

theorem test_penalty_all_light : after .penalty (fresh 1) (·.result) = some 798#32 := by decide +kernel
theorem test_penalty_without_matrix : after .penalty State.reset (fun t => (t.statusWord, t.errinfo)) =
    some (0x506#32, 0x52#32) := by decide

theorem test_msksel_tie :
    after .msksel (fresh 1) (fun t => (t.pentab.toList, t.maskid)) =
      some ([0#16, 399#16, 399#16, 0#16, 0#16, 278#16, 152#16, 0#16], 0#3) := by decide +kernel

/-- "HELLO" at level Medium (R221, R208). -/
def helloState : State := withPayload hello State.reset

theorem test_encode_hello :
    after (.encode 1#8) helloState (fun t =>
        ([t.ver.toNat, t.cap.toNat, t.cwlen.toNat, t.bitcnt.toNat, t.maskid.toNat, t.fmt.toNat] ++ t.pentab.toList.map BitVec.toNat,
          bytesAt t 0x213 7, rowBits t.planeM 8 0 21)) =
      some ([1, 0x713, 26, 208, 4, 0x662F, 183, 203, 189, 179, 173, 202, 208, 173],
        some [0x4D#8, 0x2A#8, 0xD3#8, 0xBB#8, 0x9F#8, 0x20#8, 0x84#8],
        bits [1, 1, 0, 0, 1, 1, 1, 0, 0, 0, 1, 1, 0, 0, 0, 1, 0, 1, 1, 1, 1]) := by decide +kernel
theorem test_encode_overlong :
    after (.encode 1#8) { State.reset with len := 107#32 } (fun t => (t.statusWord, t.errinfo, t.size)) =
      some (0x206#32, 0x160#32, 0#6) := by decide

/-! ### Line penalties (2.7) -/

theorem test_line_penalty :
    linePenalty [false, false, false, false] = 0 ∧ linePenalty (List.replicate 5 false) = 3 ∧
      linePenalty (List.replicate 6 false) = 4 ∧ linePenalty (List.replicate 21 false) = 19 ∧
      linePenalty (List.replicate 5 true ++ List.replicate 5 false) = 6 := by decide

/-! ### Handshake (2.9) -/

theorem test_dropped_command :
    (State.writeCmd { State.reset with status := { done := true, err := true, drop := false, errCode := 1#4 } } 0#32).statusWord =
      0x10E#32 := by decide
theorem test_clear_keeps_errcode :
    (State.clearStatus { State.reset with status := { done := true, err := true, drop := true, errCode := 1#4 } } 0xE#32).statusWord =
      0x100#32 := by decide
theorem test_illegal_word : isNext (engineStep 3#32 State.reset) = true ∧
    (match engineStep 3#32 State.reset with | .next t => (t.statusWord, t.errinfo) | .fault _ => (0, 0) | .refused _ => (0, 0)) =
      (0x306#32, 3#32) := by decide
theorem test_write_of_result_is_bad : accessFault (State.reset.hostAccess (.write 0x010#13 .word 1#32)) = some .badAccess := by decide
theorem test_mat_without_matrix_is_bad : accessFault (State.reset.hostAccess (.read 0x1000#13 .byte)) = some .badAccess := by decide
theorem test_read_unwritten : accessFault (State.reset.hostAccess (.read 0x200#13 .byte)) = some .readUnwritten := by decide
theorem test_len_while_busy : accessFault ((pending 0#32 1).hostAccess (.read 0x018#13 .word)) = some .busyAccess := by decide

/-- ID reads its value while BUSY = 1 (R22). -/
theorem test_id_while_busy : (match (pending 0#32 1).hostAccess (.read 0x000#13 .word) with | .ok t => t.readLog | .error _ => []) =
    [0x51520001#32] := by decide
/-- IRQ rises when CTRL enables DONE already set, and falls when the enable is cleared (R236). -/
theorem test_irq_follows_ctrl :
    (match { State.reset with status := { done := true, err := false, drop := false, errCode := 0#4 } }.hostAccess
        (.write 0x004#13 .word 1#32) with
      | .ok t => (t.irq, match t.hostAccess (.write 0x004#13 .word 2#32) with | .ok u => u.irq | .error _ => true)
      | .error _ => (false, true)) = (true, false) := by decide

/-! ### States that meet the invariant -/

/-- The invariant of a state with the storage of another one that has it, a legal SIZE and no command pending. -/
theorem inv_of_storage {s t : State} (h : s.Inv) (hr : t.rom = s.rom) (hm : t.mem = s.mem) (hM : t.planeM = s.planeM)
    (hR : t.planeR = s.planeR) (hS : t.planeS = s.planeS) (hz : t.size = s.size) (hp : t.pend = none) : t.Inv where
  rom := hr.trans h.rom
  memCanonical := hm ▸ h.memCanonical
  memInBuffers := hm ▸ h.memInBuffers
  shapeM := hM ▸ h.shapeM
  shapeR := hR ▸ h.shapeR
  shapeS := hS ▸ h.shapeS
  size := hz ▸ h.size
  writtenM := by
    rw [hz, hM]
    exact h.writtenM
  writtenR := by
    rw [hz, hR]
    exact h.writtenR
  noErrWhileBusy := by simp [hp]

theorem witness_inv_reset : State.reset.Inv where
  rom := rfl
  memCanonical := List.Pairwise.nil
  memInBuffers := fun p hp => absurd hp (by simp [State.reset, State.resetWith])
  shapeM := Plane.unwritten_wf
  shapeR := Plane.unwritten_wf
  shapeS := Plane.unwritten_wf
  size := .inl rfl
  writtenM := fun h => absurd rfl h
  writtenR := fun h => absurd rfl h
  noErrWhileBusy := fun h => absurd h (by decide)

/-- A fresh matrix of a version 1..5 meets the invariant and has SIZE ≠ 0. -/
theorem witness_inv_fresh (v : Nat) (h : 1 ≤ v ∧ v ≤ 5) : (fresh v).Inv ∧ (fresh v).size ≠ 0#6 := by
  obtain ⟨h1, h5⟩ := h
  have hs : LegalSize (fresh v).size ∧ (fresh v).size ≠ 0#6 := by
    interval_cases v <;> exact ⟨by unfold LegalSize; decide, by decide⟩
  exact ⟨{
    rom := rfl
    memCanonical := List.Pairwise.nil
    memInBuffers := fun p hp => absurd hp (by simp [fresh, State.initMatrix, State.reset, State.resetWith])
    shapeM := Plane.fill_wf false
    shapeR := Plane.fill_wf false
    shapeS := Plane.unwritten_wf
    size := hs.1
    writtenM := fun _ => Plane.fill_allWritten false
    writtenR := fun _ => Plane.fill_allWritten false
    noErrWhileBusy := fun h => absurd h (by simp [fresh, State.initMatrix, State.reset, State.resetWith]) }, hs.2⟩

/-- The invariant with codewords loaded. -/
theorem inv_withCodewords {s : State} (h : s.Inv) (cw : List Byte) (hl : cw.length ≤ 256) : (withCodewords cw s).Inv where
  rom := h.rom
  memCanonical := Memory.writeBytes_wf h.memCanonical _ _
  memInBuffers := fun p hp => by
    rcases Memory.mem_writeBytes hp with hp | hp
    · exact h.memInBuffers p hp
    · exact .inr (.inl ⟨hp.1, by simp only [cwBase, bufferBytes]; omega⟩)
  shapeM := h.shapeM
  shapeR := h.shapeR
  shapeS := h.shapeS
  size := h.size
  writtenM := h.writtenM
  writtenR := h.writtenR
  noErrWhileBusy := h.noErrWhileBusy

theorem read_loaded (m : Memory) (a : Nat) (bs : List Byte) {k : Nat} (h : k < bs.length) :
    (m.writeBytes a bs).read (a + k) = bs[k]? := by
  rw [Memory.read_writeBytes, if_pos (by omega), Nat.add_sub_cancel_left]

/-- A loaded payload is the payload. -/
theorem payloadIs_withPayload (p : List Byte) (s : State) (h : p.length < 2 ^ 32) : PayloadIs (withPayload p s) p :=
  ⟨by simpa [withPayload] using (Nat.mod_eq_of_lt h).symm, fun _ hk => read_loaded _ _ _ hk⟩

theorem payloadIs_withVersion (p : List Byte) (v : Word) (h : p.length < 2 ^ 32) :
    PayloadIs { withPayload p State.reset with ver := v } p := payloadIs_withPayload p State.reset h

theorem payloadIs_truncating (p : List Byte) (v : Word) (h : p.length < 2 ^ 32) :
    PayloadIs (truncating { withPayload p State.reset with ver := v }) p := payloadIs_withPayload p State.reset h

theorem payloadIs_truncating_reset (p : List Byte) (h : p.length < 2 ^ 32) :
    PayloadIs (truncating (withPayload p State.reset)) p := payloadIs_withPayload p State.reset h

/-- Loaded codewords are the codewords. -/
theorem codewords_withCodewords (cw : List Byte) (s : State) (h : cw.length < 2 ^ 32) :
    cw.length = (withCodewords cw s).cwlen.toNat ∧ ∀ k < cw.length, (withCodewords cw s).mem.read (0x200 + k) = cw[k]? :=
  ⟨by simpa [withCodewords] using (Nat.mod_eq_of_lt h).symm, fun _ hk => read_loaded _ _ _ hk⟩

@[simp] theorem manyA_length (n : Nat) : (manyA n).length = n := by simp [manyA]

/-- A matrix of version 1 with every cell reserved. -/
def allReserved : State := { fresh 1 with planeR := Plane.fill true }

theorem inv_allReserved : allReserved.Inv :=
  have h := (witness_inv_fresh 1 (by decide)).1
  { rom := h.rom
    memCanonical := h.memCanonical
    memInBuffers := h.memInBuffers
    shapeM := h.shapeM
    shapeR := Plane.fill_wf true
    shapeS := h.shapeS
    size := h.size
    writtenM := h.writtenM
    writtenR := fun _ => Plane.fill_allWritten true
    noErrWhileBusy := h.noErrWhileBusy }

/-! ### Witnesses: each statement's hypotheses are met, at the ends of their ranges -/

/-- The opcodes and their use of A and B (R92). -/
def forms : List (Byte × Bool × Bool) :=
  [(0x00#8, false, false), (0x01#8, true, true), (0x02#8, true, true), (0x08#8, true, true), (0x10#8, false, false),
   (0x11#8, true, false), (0x20#8, false, false), (0x30#8, true, false), (0x31#8, true, true), (0x40#8, true, false),
   (0x41#8, false, false), (0x42#8, false, false), (0x43#8, false, false), (0x44#8, false, false), (0x45#8, true, true),
   (0x46#8, false, false), (0x50#8, true, false), (0x51#8, true, false), (0x52#8, false, false), (0x53#8, false, false),
   (0x60#8, true, false)]

/-- Both clauses of CommandForm have a word, for every opcode: operands 0 and C = 0; and C = 1. -/
theorem witness_CommandForm : ∀ f ∈ forms,
    (let w := assemble f.1 0#8 0#8
     w.extractLsb' 0 8 = f.1 ∧ w.extractLsb' 24 8 = 0#8 ∧ (f.2.1 = true ∨ w.extractLsb' 8 8 = 0#8) ∧
       (f.2.2 = true ∨ w.extractLsb' 16 8 = 0#8)) ∧
    (let w := 0x01000000#32 ||| assemble f.1 0#8 0#8
     w.extractLsb' 0 8 = f.1 ∧ ¬(w.extractLsb' 24 8 = 0#8 ∧ (f.2.1 = true ∨ w.extractLsb' 8 8 = 0#8) ∧
       (f.2.2 = true ∨ w.extractLsb' 16 8 = 0#8))) := by decide +kernel

theorem witness_DecodedWordIsTheEncoding : decode 0x00CA5301#32 = .ok (.gfmul 0x53#8 0xCA#8) := by decide

theorem witness_IllegalWordReportsIllegalCommand : ¬LegalInForm 0x00000003#32 ∧ ¬LegalInForm 0xFF010101#32 := by
  unfold LegalInForm
  decide

theorem witness_StepRunsThePendingCommand :
    ((pending 0x10#32 0).pend = some 0x10#32 ∧ (pending 0x10#32 0).left = 0 ∧ decode 0x10#32 = .ok .verfor) ∧
      ((pending 0x10#32 3).pend = some 0x10#32 ∧ (pending 0x10#32 3).hostQ = []) := by decide

theorem witness_FetchedTableWordRunsNext : decodeTableWord 32 0x00071331 = some (.rsenc 19#8 7#8) := by decide

theorem witness_OnlyFourCommandsMeetUnwrittenBytes :
    ∃ s : State, s.Inv ∧ exec .denc s = .fault .readUnwritten :=
  ⟨{ State.reset with ver := 1#32, len := 1#32 },
    inv_of_storage witness_inv_reset rfl rfl rfl rfl rfl rfl rfl, eq_fault (by decide)⟩

theorem witness_CommandsWriteOnlyWhatTheTableLists :
    (∃ t, exec (.gfmul 2#8 2#8) State.reset = .next t) ∧ (∃ t, exec (.mxinit 5#8) State.reset = .next t) :=
  ⟨exists_next (by decide), exists_next (by decide +kernel)⟩

/-- The byte clause, at both ends of what a command may write: DENC of version 1, RSGEN 7, RSENC 19, 7 and ENCODE of no payload. -/
theorem witness_CommandsWriteOnlyWhatTheTableLists_bytes :
    (let s : State := { State.reset with ver := 1#32 }
     MayWriteByte .denc s 0x212 ∧ ¬MayWriteByte .denc s 0x213 ∧ (∃ t, exec .denc s = .next t)) ∧
    (MayWriteByte (.rsgen 7#8) State.reset 0x307 ∧ ¬MayWriteByte (.rsgen 7#8) State.reset 0x308) ∧
    (¬MayWriteByte (.rsenc 19#8 7#8) State.reset 0x212 ∧ MayWriteByte (.rsenc 19#8 7#8) State.reset 0x213 ∧
      MayWriteByte (.rsenc 19#8 7#8) State.reset 0x219 ∧ ¬MayWriteByte (.rsenc 19#8 7#8) State.reset 0x21A) ∧
    (MayWriteByte (.encode 0#8) State.reset 0x219 ∧ ¬MayWriteByte (.encode 0#8) State.reset 0x21A ∧
      MayWriteByte (.encode 0#8) State.reset 0x307 ∧ ¬MayWriteByte (.encode 0#8) State.reset 0x308) := by
  unfold MayWriteByte
  refine ⟨⟨by decide, by decide, exists_next (by decide +kernel)⟩, ?_, ?_, ?_⟩ <;> decide

/-- The cell clause: the invariant, commands that complete, and cells inside and outside what they may write. -/
theorem witness_CommandsWriteOnlyWhatTheTableLists_cells :
    (fresh 1).Inv ∧ (∃ t, exec .mxfind (fresh 1) = .next t) ∧
      (¬MayWriteModule .mxfind (fresh 1) 7 0 ∧ MayWriteReserved .mxfind (fresh 1) 7 0 ∧ ¬MayWriteReserved .mxfind (fresh 1) 8 0) ∧
      (∃ t, exec (.mskapply 1#8) (fresh 1) = .next t) ∧
      (MayWriteModule (.mskapply 1#8) (fresh 1) 20 20 ∧ ¬MayWriteModule (.mskapply 1#8) (fresh 1) 19 20 ∧
        ¬MayWriteModule (.mskapply 1#8) (fresh 1) 22 20) := by
  refine ⟨(witness_inv_fresh 1 (by decide)).1, exists_next (by decide +kernel), ?_, exists_next (by decide +kernel), ?_⟩
  · unfold MayWriteModule MayWriteReserved InCorner
    decide
  · unfold MayWriteModule Condition
    refine ⟨?_, ?_, ?_⟩ <;> decide +kernel

theorem witness_CommandsIgnoreCtrlAndHostRecord : ∃ t, exec (.capof 5#8) State.reset = .next t := exists_next (by decide)

/-- Every code of R231, two checks failing at once (MXFMT 4, 0 without a matrix: ILLOPND), and the checks passed, at the ends of the
ranges. -/
theorem witness_FirstFailingCheckDecidesTheOutcome :
    firstError 0x00000003#32 State.reset = some 3#4 ∧ firstError 0x01000160#32 State.reset = some 3#4 ∧
      firstError 0x00000445#32 State.reset = some 4#4 ∧ firstError 0x0000FF31#32 State.reset = none ∧
      firstError 0x0002FF31#32 State.reset = some 4#4 ∧ firstError 0x00000020#32 State.reset = some 4#4 ∧
      firstError 0x00000046#32 { State.reset with cwlen := 257#32 } = some 4#4 ∧
      firstError 0x00070345#32 State.reset = some 5#4 ∧
      firstError 0x00000020#32 { State.reset with ver := 1#32, len := 18#32 } = some 2#4 ∧
      firstError 0x00000020#32 { State.reset with ver := 1#32, len := 17#32 } = none ∧
      firstError 0x00000360#32 { State.reset with len := 107#32 } = some 2#4 ∧
      firstError 0x00000360#32 (truncating { State.reset with len := 256#32 }) = some 2#4 ∧
      firstError 0x00000360#32 (truncating { State.reset with len := 255#32 }) = none ∧
      firstError 0x00000002#32 State.reset = some 1#4 ∧ firstError 0x00000000#32 State.reset = none := by decide +kernel

theorem witness_UnwrittenInputStopsTheModel_denc :
    let s : State := { State.reset with ver := 1#32, len := 17#32 }
    1 ≤ s.ver.toNat ∧ s.ver.toNat ≤ 5 ∧ Accepted s.cfg.overflow s.len.toNat (dOf s.ver.toNat) ∧ 16 < s.len.toNat ∧
      s.mem.read (0x100 + 16) = none := by
  unfold Accepted
  decide

theorem witness_UnwrittenInputStopsTheModel_rsenc :
    (32#8 : Byte) ≤ 32#8 ∧ (224#8 : Byte).toNat + (32#8 : Byte).toNat ≤ 256 ∧ 223 < (224#8 : Byte).toNat ∧
      State.reset.mem.read (0x200 + 223) = none := by decide

theorem witness_UnwrittenInputStopsTheModel_mxdata :
    let s : State := { fresh 1 with cwlen := 256#32 }
    s.size ≠ 0#6 ∧ s.cwlen.toNat ≤ 256 ∧ 255 < s.cwlen.toNat ∧ s.mem.read (0x200 + 255) = none := by decide

theorem witness_UnwrittenInputStopsTheModel_encode :
    let s : State := { State.reset with len := 106#32 }
    (3#8 : Byte) ≤ 3#8 ∧ IsVersionFor s.len.toNat 5 ∧ Accepted s.cfg.overflow s.len.toNat (dOf 5) ∧ 105 < s.len.toNat ∧
      s.mem.read (0x100 + 105) = none := by
  refine ⟨by decide, ⟨by decide, by decide, fun u h1 h2 => ?_, by decide⟩, by unfold Accepted; decide, by decide, by decide⟩
  interval_cases u <;> decide

theorem witness_MultiplyAndDivideObeyTheFieldLaws : (1#8 : Byte) ≠ 0#8 ∧ (255#8 : Byte) ≠ 0#8 ∧ 0 ≤ 255 ∧ 255 ≤ 255 := by decide

theorem witness_GfmulIsThePolynomialProduct : State.reset.rom = GfRom.fixed := rfl

theorem witness_GfdivIsTheFieldQuotient :
    State.reset.rom = GfRom.fixed ∧ (0xCA#8 : Byte) ≠ 0#8 ∧ fieldMul 0x6D#8 0xCA#8 = 0x53#8 := ⟨rfl, by decide, by decide⟩

theorem witness_CapofReadsTheCapacityTable :
    (1 ≤ (1#8 : Byte).toNat ∧ (1#8 : Byte).toNat ≤ 5) ∧ (1 ≤ (5#8 : Byte).toNat ∧ (5#8 : Byte).toNat ≤ 5) ∧
      ¬(1 ≤ (0#8 : Byte).toNat ∧ (0#8 : Byte).toNat ≤ 5) ∧ ¬(1 ≤ (6#8 : Byte).toNat ∧ (6#8 : Byte).toNat ≤ 5) := by decide

/-- 17 bytes fill version 1 exactly; 255 bytes are accepted under TRUNCATE; no byte at all. -/
theorem witness_DencWritesTheClosedForm :
    (let s : State := { withPayload (manyA 17) State.reset with ver := 1#32 }
     1 ≤ s.ver.toNat ∧ s.ver.toNat ≤ 5 ∧ PayloadIs s (manyA 17) ∧ Accepted s.cfg.overflow (manyA 17).length (dOf s.ver.toNat)) ∧
    (let s : State := truncating { withPayload (manyA 255) State.reset with ver := 5#32 }
     1 ≤ s.ver.toNat ∧ s.ver.toNat ≤ 5 ∧ PayloadIs s (manyA 255) ∧ Accepted s.cfg.overflow (manyA 255).length (dOf s.ver.toNat)) ∧
    (let s : State := { State.reset with ver := 5#32 }
     PayloadIs s [] ∧ Accepted s.cfg.overflow 0 (dOf s.ver.toNat)) := by
  refine ⟨⟨by decide, by decide, payloadIs_withVersion (manyA 17) _ (by simp), ?_⟩,
    ⟨by decide, by decide, payloadIs_truncating (manyA 255) _ (by simp), ?_⟩, by unfold PayloadIs; decide, ?_⟩
  all_goals simp only [manyA_length]; unfold Accepted; decide

theorem witness_RsgenBuildsTheRootProduct :
    (0#8 : Byte) ≤ 32#8 ∧ (32#8 : Byte) ≤ 32#8 ∧ ¬(33#8 : Byte) ≤ 32#8 ∧ State.reset.rom = GfRom.fixed :=
  ⟨by decide, by decide, by decide, rfl⟩

theorem witness_RemainderIsLinear : ([1#8, 2#8] : List Byte).length = ([3#8, 255#8] : List Byte).length := rfl

/-- The NotInitialised clause of every matrix and mask command, and the operands out of range. -/
theorem witness_NotInitialised_and_operands :
    State.reset.size = 0#6 ∧ ¬((4#8 : Byte) ≤ 3#8 ∧ (0#8 : Byte) ≤ 7#8) ∧ ¬(8#8 : Byte) ≤ 7#8 ∧ (7#8 : Byte) ≤ 7#8 := by decide

theorem witness_RsencMakesACodeword :
    (let s := withCodewords (manyA 224) State.reset
     (32#8 : Byte) ≤ 32#8 ∧ (224#8 : Byte).toNat + (32#8 : Byte).toNat ≤ 256 ∧ s.rom = GfRom.fixed ∧
       (manyA 224).length = (224#8 : Byte).toNat ∧
       ∀ k < (224#8 : Byte).toNat, s.mem.read (0x200 + k) = (manyA 224)[k]?) ∧
    ((0#8 : Byte) ≤ 32#8 ∧ (0#8 : Byte).toNat + (0#8 : Byte).toNat ≤ 256 ∧ ([] : List Byte).length = (0#8 : Byte).toNat) :=
  ⟨⟨by decide, by decide, rfl, manyA_length 224, fun k hk =>
    (codewords_withCodewords (manyA 224) State.reset (by simp)).2 k (by rw [manyA_length]; exact hk)⟩, by decide⟩

theorem witness_MxinitClearsAWholeMatrix :
    (1 ≤ (1#8 : Byte).toNat ∧ (5#8 : Byte).toNat ≤ 5) ∧ ¬(1 ≤ (0#8 : Byte).toNat ∧ (0#8 : Byte).toNat ≤ 5) ∧
      ¬(1 ≤ (6#8 : Byte).toNat ∧ (6#8 : Byte).toNat ≤ 5) := by decide

/-- The hypotheses of MXFIND, MXSEP, MXTIME, MXDARK, PENALTY, MSKSEL and of the orders of commands: the smallest and the largest
matrix. -/
theorem witness_MatrixStatements :
    ((fresh 1).Inv ∧ (fresh 1).size ≠ 0#6) ∧ ((fresh 5).Inv ∧ (fresh 5).size ≠ 0#6) :=
  ⟨witness_inv_fresh 1 (by decide), witness_inv_fresh 5 (by decide)⟩

theorem witness_MxfindDrawsTheThreeFinders_cells :
    InCorner 8 21 7 13 ∧ ¬InCorner 8 21 8 13 ∧ InCorner 7 21 6 14 ∧ ¬InCorner 7 21 7 14 := by
  unfold InCorner
  decide

theorem witness_MxsepFramesTheFinders_cells :
    (InCorner 8 37 29 7 ∧ ¬InCorner 7 37 29 7) ∧ ¬(InCorner 8 37 30 6 ∧ ¬InCorner 7 37 30 6) ∧
      ¬(InCorner 8 37 8 8 ∧ ¬InCorner 7 37 8 8) := by
  unfold InCorner
  decide

theorem witness_MxtimeAlternatesBetweenTheFinders_cells :
    InTiming 21 6 8 ∧ InTiming 21 12 6 ∧ ¬InTiming 21 6 7 ∧ ¬InTiming 21 13 6 := by
  unfold InTiming
  decide

theorem witness_MxfmtWritesTheWordTwice :
    (3#8 : Byte) ≤ 3#8 ∧ (7#8 : Byte) ≤ 7#8 ∧ (fresh 5).Inv ∧ (fresh 5).size ≠ 0#6 :=
  ⟨by decide, by decide, witness_inv_fresh 5 (by decide)⟩

theorem witness_MxfmtWritesTheWordTwice_cells :
    (8, 0) ∈ copyOne ++ copyTwo 21 ∧ (8, 20) ∈ copyOne ++ copyTwo 21 ∧ (13, 8) ∈ copyOne ++ copyTwo 21 ∧
      (8, 13) ∉ copyOne ++ copyTwo 21 := by decide

theorem witness_FmtbitsReturnsTheFormatWord :
    ((3#8 : Byte) ≤ 3#8 ∧ (7#8 : Byte) ≤ 7#8) ∧ ¬((4#8 : Byte) ≤ 3#8 ∧ (0#8 : Byte) ≤ 7#8) ∧
      ¬((0#8 : Byte) ≤ 3#8 ∧ (8#8 : Byte) ≤ 7#8) := by decide

theorem witness_MxdataFillsTheUnreservedCells :
    let s := withCodewords (manyA 256) (fresh 1)
    s.Inv ∧ s.size ≠ 0#6 ∧ s.cwlen.toNat ≤ 256 ∧ (manyA 256).length = s.cwlen.toNat ∧
      ∀ k < (manyA 256).length, s.mem.read (0x200 + k) = (manyA 256)[k]? := by
  have h := codewords_withCodewords (manyA 256) (fresh 1) (by simp)
  refine ⟨inv_withCodewords (witness_inv_fresh 1 (by decide)).1 _ (by simp), by decide, ?_, h.1, h.2⟩
  rw [← h.1]
  simp

theorem witness_MxdataFillsTheUnreservedCells_empty :
    let s := withCodewords [] (fresh 5)
    s.Inv ∧ s.size ≠ 0#6 ∧ s.cwlen.toNat ≤ 256 ∧ ([] : List Byte).length = s.cwlen.toNat :=
  ⟨inv_withCodewords (witness_inv_fresh 5 (by decide)).1 _ (by decide), by decide, by decide, by decide⟩

theorem witness_ZigzagVisitsEveryCellOnce : LegalSize 21#6 ∧ LegalSize 37#6 ∧ (21#6 : BitVec 6) ≠ 0#6 ∧ (37#6 : BitVec 6) ≠ 0#6 := by
  unfold LegalSize
  decide

theorem witness_ReservedCellsStayReserved :
    allReserved.Inv ∧ (Instr.mskapply 0#8).mnemonic ∉ ["MXINIT", "ENCODE"] ∧ (∃ t, exec (.mskapply 0#8) allReserved = .next t) ∧
      allReserved.planeR.get 20 20 = some true ∧ (Instr.mskapply 0#8).mnemonic ∈ ["MXDATA", "MSKAPPLY"] :=
  ⟨inv_allReserved, by decide, exists_next (by decide +kernel), by decide +kernel, by decide⟩

theorem witness_StructureIsIdempotent : 1 ≤ (1#8 : Byte).toNat ∧ (5#8 : Byte).toNat ≤ 5 := by decide

theorem witness_PatternsAndMasksCommute :
    (fresh 3).Inv ∧ (fresh 3).size ≠ 0#6 ∧ (3#8 : Byte) ≤ 3#8 ∧ (7#8 : Byte) ≤ 7#8 ∧ (0#8 : Byte) ≤ 3#8 := by
  obtain ⟨h1, h2⟩ := witness_inv_fresh 3 (by decide)
  exact ⟨h1, h2, by decide, by decide, by decide⟩

/-- MSKAPPLY, masking twice and MSKSCORE: the first and the last mask. -/
theorem witness_MaskStatements :
    (0#8 : Byte) ≤ 7#8 ∧ (7#8 : Byte) ≤ 7#8 ∧ (fresh 1).Inv ∧ (fresh 1).size ≠ 0#6 := by
  obtain ⟨h1, h2⟩ := witness_inv_fresh 1 (by decide)
  exact ⟨by decide, by decide, h1, h2⟩

theorem witness_MskapplyInvertsUnreservedCells_cells :
    Condition 0 0 0 ∧ ¬Condition 0 0 1 ∧ Condition 5 0 7 ∧ ¬Condition 7 0 1 ∧ ¬Condition 8 0 0 := by
  unfold Condition
  refine ⟨?_, ?_, ?_, ?_, ?_⟩ <;> decide

/-- ENCODE: no payload byte; 106 bytes, the most under FAULT; 255 bytes under TRUNCATE. -/
theorem witness_EncodeStatements_empty :
    (0#8 : Byte) ≤ 3#8 ∧ State.reset.rom = GfRom.fixed ∧ PayloadIs State.reset [] ∧ IsVersionFor ([] : List Byte).length 1 ∧
      Accepted State.reset.cfg.overflow ([] : List Byte).length (dOf 1) := by
  refine ⟨by decide, rfl, by unfold PayloadIs; decide, ⟨by decide, by decide, fun u h1 h2 => by omega, by decide⟩, ?_⟩
  unfold Accepted
  decide

theorem witness_EncodeStatements_longest :
    (let s := withPayload (manyA 106) State.reset
     (3#8 : Byte) ≤ 3#8 ∧ PayloadIs s (manyA 106) ∧ Accepted s.cfg.overflow (manyA 106).length (dOf 5)) ∧
    (let s := truncating (withPayload (manyA 255) State.reset)
     PayloadIs s (manyA 255) ∧ Accepted s.cfg.overflow (manyA 255).length (dOf 5)) ∧
    IsVersionFor (manyA 106).length 5 ∧ IsVersionFor (manyA 255).length 5 := by
  simp only [manyA_length]
  refine ⟨⟨by decide, payloadIs_withPayload (manyA 106) State.reset (by simp), by unfold Accepted; decide⟩,
    ⟨payloadIs_truncating_reset (manyA 255) (by simp), by unfold Accepted; decide⟩,
    ⟨by decide, by decide, fun u h1 h2 => ?_, by decide⟩, ⟨by decide, by decide, fun u h1 h2 => ?_, by decide⟩⟩
  all_goals interval_cases u <;> decide

/-- "HELLO" in two states that differ in registers and in an old matrix. -/
theorem witness_EncodeDependsOnlyOnPayloadAndLevel :
    (let s := helloState
     let s' := withPayload hello { fresh 5 with ver := 3#32, result := 7#32 }
     s.rom = s'.rom ∧ s.cfg = s'.cfg ∧ PayloadIs s hello ∧ PayloadIs s' hello ∧
       (∃ t, exec (.encode 1#8) s = .next t) ∧ ∃ t, exec (.encode 1#8) s' = .next t) ∧
      IsVersionFor hello.length 1 ∧ Accepted helloState.cfg.overflow hello.length (dOf 1) := by
  refine ⟨⟨rfl, rfl, payloadIs_withPayload hello _ (by decide), payloadIs_withPayload hello _ (by decide),
    exists_next_of_after test_encode_hello, exists_next (by decide +kernel)⟩,
    ⟨by decide, by decide, fun u h1 h2 => by omega, by decide⟩, by unfold Accepted; decide⟩

theorem witness_BusyAllowsOnlyStatusAndId :
    (pending 0#32 1).pend.isSome = true ∧ ¬((Access.read 0x008#13 .byte) = .read 0x008#13 .word ∨
        (Access.read 0x008#13 .byte) = .read 0x000#13 .word) ∧
      ¬((Access.write 0x008#13 .word 0#32) = .read 0x008#13 .word ∨ (Access.write 0x008#13 .word 0#32) = .read 0x000#13 .word) := by
  decide

/-- BUSY = 0: the hypothesis of the statements about Host accesses; and both sides of the window map. -/
theorem witness_HostAccessStatements : State.reset.pend = none ∧ (fresh 1).pend = none := by decide

theorem witness_WindowMapDecidesBadAccess_allowed :
    ReadAllowed 21 0x320 .byte ∧ ReadAllowed 21 0x05C .word ∧ WriteAllowed 0 0x2FF .byte ∧ WriteAllowed 0 0x00C .word := by
  unfold ReadAllowed WriteAllowed RegisterOffset
  exact ⟨.inr (.inl (by decide)), .inl (by decide), .inr (.inl (by decide)), .inl (by decide)⟩

theorem witness_WindowMapDecidesBadAccess_bad :
    ¬ReadAllowed 0 0x321 .byte ∧ ¬ReadAllowed 0 0x00C .word ∧ ¬WriteAllowed 0 0x300 .byte ∧ ¬WriteAllowed 0 0x010 .word := by
  unfold ReadAllowed WriteAllowed RegisterOffset CellOffset
  refine ⟨?_, ?_, ?_, ?_⟩ <;> simp

theorem witness_CmdWriteIssuesOrDrops :
    (State.reset.pend = none ∧ State.reset.status.err = false) ∧
    (let s : State := { State.reset with status := { done := true, err := true, drop := false, errCode := 1#4 } }
     s.pend = none ∧ s.status.err = true) ∧
    (pending 0#32 0).pend.isSome = true := by decide

theorem witness_BufferWritesChangeOneByte : State.reset.pend = none ∧ 0x100 ≤ 0x2FF ∧ 0x100 ≤ 0x100 := by decide

theorem witness_MatWindowIsTheTwoPlanes :
    ((fresh 1).pend = none ∧ 0x1000 ≤ (0x1FFF#13 : Offset).toNat ∧ Width.half ≠ .byte ∧ Width.word ≠ .byte) ∧
      (20 < (fresh 1).size.toNat ∧ 20 < 64) ∧ (fresh 1).planeM.get 20 20 = some false ∧
      (fresh 1).planeR.get 20 20 = some false ∧ ¬(21 < (fresh 1).size.toNat ∧ 0 < (fresh 1).size.toNat) ∧
      ¬(0 < State.reset.size.toNat ∧ 0 < State.reset.size.toNat) := by decide +kernel

theorem witness_ResetLeavesTheListedValues : 0x1000 ≤ (0x1000#13 : Offset).toNat ∧ 0x100 ≤ 0x320 := by decide

theorem witness_IrqFollowsDoneAndErr :
    State.reset.pend = none ∧ (∃ t, engineStep 0x10#32 State.reset = .next t) ∧
      ∃ t, State.reset.hostAccess (.write 0x008#13 .word 0x0000000E#32) = .ok t :=
  ⟨rfl, exists_next (by decide), _, rfl⟩

theorem witness_PlatformResetDiscardsThePendingCommand :
    (let s : State := { pending 0x160#32 2 with hostQ := [.reset, .wait] }
     s.hostQ = .reset :: [.wait] ∧ s.left ≠ 0) ∧
    (let s : State := { State.reset with hostQ := [.reset] }
     s.hostQ = .reset :: [] ∧ s.pend = none) := by decide

/-- Each kind of Host's turn: an access with BUSY = 0 and with events left before the Engine step, allowed and refused; a `wait` with
BUSY = 0 and with BUSY = 1; an idle block. -/
theorem witness_StepMakesTheHostsEvent :
    (let s : State := { State.reset with hostQ := [.access (.read 0x000#13 .word)] }
     s.hostQ = .access (.read 0x000#13 .word) :: [] ∧ s.pend = none ∧
       ∃ t, State.hostAccess { s with hostQ := [], left := s.left - 1 } (.read 0x000#13 .word) = .ok t) ∧
    (let s : State := { pending 0#32 1 with hostQ := [.access (.read 0x018#13 .word)] }
     s.hostQ = .access (.read 0x018#13 .word) :: [] ∧ s.left ≠ 0 ∧
       State.hostAccess { s with hostQ := [], left := s.left - 1 } (.read 0x018#13 .word) = .error .busyAccess) ∧
    (let s : State := { State.reset with hostQ := [.wait] }
     s.hostQ = .wait :: [] ∧ s.pend = none) ∧
    (let s : State := { pending 0#32 1 with hostQ := [.wait] }
     s.hostQ = .wait :: [] ∧ s.pend.isSome = true ∧ s.left ≠ 0) ∧
    (State.reset.hostQ = [] ∧ State.reset.pend = none) :=
  ⟨⟨rfl, rfl, _, rfl⟩, ⟨rfl, by decide, rfl⟩, ⟨rfl, rfl⟩, ⟨rfl, rfl, by decide⟩, rfl, rfl⟩

theorem witness_WaitLoopEndsInTheEngineStep :
    let s : State := { pending 0x10#32 7 with hostQ := [.wait] }
    s.pend = some 0x10#32 ∧ s.hostQ = .wait :: [] := by decide

/-- The invariant and a step: the block idle, and a command pending. -/
theorem witness_EveryStepKeepsTheInvariant :
    (State.reset.Inv ∧ ∃ t, step State.reset = .next t) ∧
      ((pending 0x140#32 0).Inv ∧ ∃ t, step (pending 0x140#32 0) = .next t) :=
  ⟨⟨witness_inv_reset, _, rfl⟩,
    { rom := rfl
      memCanonical := List.Pairwise.nil
      memInBuffers := fun p hp => absurd hp (by simp [pending, State.reset, State.resetWith])
      shapeM := Plane.unwritten_wf
      shapeR := Plane.unwritten_wf
      shapeS := Plane.unwritten_wf
      size := .inl rfl
      writtenM := fun h => absurd rfl h
      writtenR := fun h => absurd rfl h
      noErrWhileBusy := fun _ => rfl },
    exists_next (by decide +kernel)⟩

theorem witness_EveryStepKeepsTheRegisterRanges : State.reset.Inv ∧ State.reset.Ranges ∧ ∃ t, step State.reset = .next t :=
  ⟨witness_inv_reset,
    { errCode := by decide
      errNamed := by decide
      cap := .inl rfl
      bitcnt := by decide
      pentab := by decide },
    _, rfl⟩

end Sys2Proof.Tests
end

section
/-! PROOFS of the Host window: where an idle block sends an access, by the place its offset and width name, and the MAT window as the two
planes M and R (R61, R64). -/

namespace Sys2Proof.Machine

/-! ### An access to an idle block, by its place -/

section IdleAccess

variable {s : State} {off : Offset} {n : Width} {v : Word} {q : Place}

/-- With BUSY = 0 a read answers what its place holds, added to the Host's record. -/
theorem hostAccess_read_of_placeAt (hs : s.pend = none) (hq : placeAt off.toNat n = some q) :
    s.hostAccess (.read off n) = (s.readPlace q).map fun x => { s with readLog := x :: s.readLog } := by
  simp [State.hostAccess, State.busy, hs, hq]

/-- With BUSY = 0 a write is the write of its place. -/
theorem hostAccess_write_of_placeAt (hs : s.pend = none) (hq : placeAt off.toNat n = some q) :
    s.hostAccess (.write off n v) = s.writePlace v q := by
  simp [State.hostAccess, State.busy, hs, hq]

/-- With BUSY = 0 a read that names no place is BadAccess (R61). -/
theorem hostAccess_read_of_placeAt_none (hs : s.pend = none) (hq : placeAt off.toNat n = none) :
    s.hostAccess (.read off n) = .error .badAccess := by
  simp [State.hostAccess, State.busy, hs, hq]

/-- With BUSY = 0 a write that names no place is BadAccess (R61). -/
theorem hostAccess_write_of_placeAt_none (hs : s.pend = none) (hq : placeAt off.toNat n = none) :
    s.hostAccess (.write off n v) = .error .badAccess := by
  simp [State.hostAccess, State.busy, hs, hq]

end IdleAccess

/-! ### The places of the MAT window -/

/-- The registers end below the first buffer (R61). -/
theorem registerAt_eq_none {off : Nat} (h : 0x60 ≤ off) : registerAt off = none := by
  unfold registerAt
  split <;> simp at h ⊢

/-- At a MAT offset only the 8-bit width names a place (R64). -/
theorem placeAt_mat_of_not_byte {off : Nat} {n : Width} (hoff : 0x1000 ≤ off) (hn : n ≠ .byte) : placeAt off n = none := by
  cases n with
  | byte => exact absurd rfl hn
  | half => rfl
  | word => simp [placeAt, registerAt_eq_none (show 0x60 ≤ off by omega)]

/-- The byte at 0x1000 + 64 r + c is that of cell (r, c) (R64). -/
theorem placeAt_matOffset {r c : Nat} (hr : r < 64) (hc : c < 64) :
    placeAt (BitVec.ofNat 13 (0x1000 + 64 * r + c)).toNat .byte = some (.mat r c) := by
  have hoff : (BitVec.ofNat 13 (0x1000 + 64 * r + c)).toNat = 0x1000 + 64 * r + c := by
    rw [BitVec.toNat_ofNat]
    omega
  have hrow : (0x1000 + 64 * r + c - 0x1000) / 64 = r := by omega
  have hcol : (0x1000 + 64 * r + c - 0x1000) % 64 = c := by omega
  rw [hoff]
  unfold placeAt
  rw [if_neg (by omega), if_neg (by omega), if_neg (by omega), if_pos (by omega), hrow, hcol]

/-! ### The MAT byte of a cell -/

section MatCell

variable {s : State} {r c : Nat}

theorem cellInMatrix_iff : s.cellInMatrix r c = true ↔ r < s.size.toNat ∧ c < s.size.toNat := decide_eq_true_iff

/-- A MAT byte read as a word is (R << 1) | M (R64). -/
theorem matByte_setWidth (m q : Bool) : (matByte m q).setWidth 32 = 0#30 ++ BitVec.ofBool q ++ BitVec.ofBool m := by
  cases m <;> cases q <;> rfl

theorem readPlace_mat (hin : r < s.size.toNat ∧ c < s.size.toNat) {m q : Bool}
    (hm : s.planeM.get r c = some m) (hq : s.planeR.get r c = some q) :
    s.readPlace (.mat r c) = .ok (0#30 ++ BitVec.ofBool q ++ BitVec.ofBool m) := by
  have hcell : s.matCell r c = some (matByte m q) := by simp only [State.matCell, hm, hq]
  rw [State.readPlace, if_pos (cellInMatrix_iff.2 hin), hcell, byteOr, matByte_setWidth]

theorem readPlace_mat_outside (hout : ¬(r < s.size.toNat ∧ c < s.size.toNat)) :
    s.readPlace (.mat r c) = .error .badAccess := by
  rw [State.readPlace, if_neg (mt cellInMatrix_iff.1 hout)]

theorem writePlace_mat (hin : r < s.size.toNat ∧ c < s.size.toNat) (v : Word) :
    s.writePlace v (.mat r c) = .ok { s with
      planeM := s.planeM.set r c (v.getLsbD 0)
      planeR := s.planeR.set r c (v.getLsbD 1) } := by
  rw [State.writePlace, if_pos (cellInMatrix_iff.2 hin)]

theorem writePlace_mat_outside (hout : ¬(r < s.size.toNat ∧ c < s.size.toNat)) (v : Word) :
    s.writePlace v (.mat r c) = .error .badAccess := by
  rw [State.writePlace, if_neg (mt cellInMatrix_iff.1 hout)]

end MatCell

theorem Plane.get_set_same (p : Plane) (r c : Nat) (v : Bool) : (p.set r c v).get r c = some v := by
  rw [Plane.get_set, if_pos ⟨rfl, rfl⟩]

theorem Plane.get_set_other (p : Plane) {r c r' c' : Nat} (v : Bool) (h : ¬(r' = r ∧ c' = c)) :
    (p.set r c v).get r' c' = p.get r' c' := by
  rw [Plane.get_set, if_neg h]

/-- Settles O51: at a MAT offset only an 8-bit access names a place, the cell (r, c), and its read and write are those of the two planes
inside the matrix and BadAccess outside it. -/
theorem matWindowIsTheTwoPlanes : Obligations.MatWindowIsTheTwoPlanes := by
  constructor
  · intro s off n v hs hoff hn
    have hplace : placeAt off.toNat n = none := placeAt_mat_of_not_byte hoff hn
    exact ⟨hostAccess_read_of_placeAt_none hs hplace, hostAccess_write_of_placeAt_none hs hplace⟩
  · intro s r c v hs hr hc
    rw [hostAccess_read_of_placeAt hs (placeAt_matOffset hr hc), hostAccess_write_of_placeAt hs (placeAt_matOffset hr hc)]
    refine ⟨fun hin => ⟨fun m q hm hq => ?_, ?_⟩, fun hout => ⟨?_, ?_⟩⟩
    · rw [readPlace_mat hin hm hq, Except.map]
    · exact ⟨_, writePlace_mat hin v, rfl, Plane.get_set_same .., Plane.get_set_same ..,
        fun _ _ hne => ⟨Plane.get_set_other _ _ hne, Plane.get_set_other _ _ hne⟩⟩
    · rw [readPlace_mat_outside hout, Except.map]
    · exact writePlace_mat_outside hout v

end Sys2Proof.Machine
end

section
/-! PROOFS of the encoding: a word that decodes matches the row of its command, and any other word reports IllegalCommand (R93, R94). -/

namespace Sys2Proof.Machine

open Sys2Proof.Claims Sys2Proof.Laws

/-! ### Words that decode are legal in form -/

/-- The second check of R96 passes exactly for a word that matches the pattern under the mask, and answers the command it was given. -/
theorem checkForm_ok {mask pattern w : Word} {i j : Instr} :
    checkForm mask pattern w i = .ok j ↔ w &&& mask = pattern ∧ i = j := by
  unfold checkForm
  split <;> simp [*]

/-- A word that decodes to a command matches the command's row of the opcode table under the row's mask (R93, R100). -/
theorem matches_row_of_decode {w : Word} {i : Instr} (h : decode w = .ok i) :
    w &&& (TableRow.row i).1 = (TableRow.row i).2 := by
  unfold decode at h
  split at h
  -- the last arm: OPC is unassigned
  case h_22 => cases h
  all_goals
    obtain ⟨hmatch, rfl⟩ := checkForm_ok.1 h
    exact hmatch

theorem row_mem_opcodeRows (i : Instr) : TableRow.row i ∈ opcodeRows := by
  cases i <;> simp [TableRow.row, opcodeRows]

theorem legalInForm_of_decode {w : Word} {i : Instr} (h : decode w = .ok i) : LegalInForm w :=
  ⟨TableRow.row i, row_mem_opcodeRows i, matches_row_of_decode h⟩

/-! ### The Engine step on a word that does not decode -/

/-- A word that does not decode is reported as IllegalCommand, code 3 (R94, R231), with the state change of R232. -/
theorem engineStep_of_decode_error {w : Word} {e : Reject} (s : State) (h : decode w = .error e) :
    engineStep w s = .next (reported s 3#4 w) := by
  rw [engineStep, h]
  rfl

/-- Settles O4: a word not legal in form does not decode, since one that decodes matches its command's row, and the Engine step reports
each word that does not decode. -/
theorem illegalWordReportsIllegalCommand : Obligations.IllegalWordReportsIllegalCommand := by
  intro w s hillegal
  cases hdecode : decode w with
  | ok i => exact absurd (legalInForm_of_decode hdecode) hillegal
  | error e => exact engineStep_of_decode_error s hdecode

end Sys2Proof.Machine
end

section
/-! PROOFS of the form of a command: what the Engine does with a word of its opcode, legal in form or not (R93, R94). -/

namespace Sys2Proof.Machine

open Sys2Proof.Claims

/-- An opcode whose decoder arm checks the word against a mask gives its command the form of R93 when the mask selects OPC, C and the
unused fields. -/
theorem commandForm_of_decode {opc : Byte} {usesA usesB : Bool} {mk : Byte → Byte → Instr} {mask pattern : Word}
    (hdecode : ∀ w, fieldOpc w = opc → decode w = checkForm mask pattern w (mk (fieldA w) (fieldB w)))
    (hmask : ∀ w, fieldOpc w = opc → (w &&& mask = pattern ↔
      fieldC w = 0#8 ∧ (usesA = true ∨ fieldA w = 0#8) ∧ (usesB = true ∨ fieldB w = 0#8))) :
    CommandForm opc usesA usesB mk := by
  intro w s hopc
  refine ⟨fun hlegal => ?_, fun hillegal => ?_⟩
  · have hok : decode w = .ok (mk (fieldA w) (fieldB w)) := by
      rw [hdecode w hopc, checkForm, if_pos ((hmask w hopc).2 hlegal)]
    rw [engineStep, hok]
    rfl
  · refine engineStep_of_decode_error s (e := .nonzeroUnusedField) ?_
    rw [hdecode w hopc, checkForm, if_neg (mt (hmask w hopc).1 hillegal)]

end Sys2Proof.Machine
end

section
/-! PROOFS of GF(2^8): the field product of R110 is bilinear, the tables hold the powers of the generator and
their exponents (R111 to R113), and so multiplication by the tables is the field product (R114) and GFMUL writes it (R116). -/

namespace Sys2Proof.Machine

open Sys2Proof.Claims

/-! ### The field product as a bilinear operation -/

/-- Adding `m` under the sum of two bits is the sum of adding it under each. -/
theorem xor_if_xor {w : Nat} (p q : Bool) (x y m : BitVec w) :
    (if (p ^^ q) = true then x ^^^ y ^^^ m else x ^^^ y) =
      (if p = true then x ^^^ m else x) ^^^ (if q = true then y ^^^ m else y) := by
  cases p <;> cases q
  case true.true =>
    calc x ^^^ y = x ^^^ y ^^^ (m ^^^ m) := by rw [BitVec.xor_self, BitVec.xor_zero]
      _ = x ^^^ m ^^^ (y ^^^ m) := by ac_rfl
  all_goals simp only [Bool.xor_true, Bool.xor_false, Bool.not_false, Bool.false_eq_true, if_true, if_false]
  all_goals ac_rfl

theorem polyProduct_xor_left (a a' b : Byte) : polyProduct (a ^^^ a') b = polyProduct a b ^^^ polyProduct a' b := by
  refine List.foldl_hom₂ _ (· ^^^ ·) _ _ _ 0#16 0#16 fun x y i => ?_
  cases b.getLsbD i
  · rfl
  · simp only [if_true, BitVec.setWidth_xor, BitVec.shiftLeft_xor_distrib]
    ac_rfl

theorem polyProduct_xor_right (a b b' : Byte) : polyProduct a (b ^^^ b') = polyProduct a b ^^^ polyProduct a b' := by
  refine List.foldl_hom₂ _ (· ^^^ ·) _ _ _ 0#16 0#16 fun x y i => ?_
  rw [BitVec.getLsbD_xor, xor_if_xor]

theorem modField_xor (x y : BitVec 16) : modField (x ^^^ y) = modField x ^^^ modField y := by
  unfold modField
  rw [← BitVec.setWidth_xor]
  congr 1
  refine List.foldl_hom₂ _ (· ^^^ ·) _ _ _ x y fun x y i => ?_
  rw [BitVec.getLsbD_xor, xor_if_xor]

theorem fieldMul_xor_left (a a' b : Byte) : fieldMul (a ^^^ a') b = fieldMul a b ^^^ fieldMul a' b := by
  rw [fieldMul, polyProduct_xor_left, modField_xor]
  rfl

theorem fieldMul_xor_right (a b b' : Byte) : fieldMul a (b ^^^ b') = fieldMul a b ^^^ fieldMul a b' := by
  rw [fieldMul, polyProduct_xor_right, modField_xor]
  rfl

/-! ### Laws on the powers of x, then on every byte -/

/-- The coefficients of `a` below degree `k + 1` are those below degree `k` and the one at `k`. -/
theorem setWidth_succ_eq_xor (a : Byte) (k : Nat) :
    (a.setWidth (k + 1)).setWidth 8 = (a.setWidth k).setWidth 8 ^^^ if a.getLsbD k then BitVec.twoPow 8 k else 0#8 := by
  cases hk : a.getLsbD k with
  | false => simp [BitVec.setWidth_setWidth_succ_eq_setWidth_setWidth_of_getLsbD_false hk]
  | true =>
    rw [BitVec.setWidth_setWidth_succ_eq_setWidth_setWidth_or_twoPow_of_getLsbD_true hk, if_pos rfl]
    ext i hi
    by_cases hik : i = k <;> simp [hik]

/-- What holds of the powers of x below x^8, and of a sum when it holds of both terms, holds of every byte; 0 is the sum 1 + 1. -/
theorem byte_xor_induction {P : Byte → Prop} (power : ∀ k : Fin 8, P (BitVec.twoPow 8 k))
    (xor : ∀ a b, P a → P b → P (a ^^^ b)) (a : Byte) : P a := by
  have zero : P 0#8 := xor _ _ (power 0) (power 0)
  have below (k : Nat) (hk : k ≤ 8) : P ((a.setWidth k).setWidth 8) := by
    induction k with
    | zero => rwa [BitVec.of_length_zero (x := a.setWidth 0)]
    | succ k ih =>
      rw [setWidth_succ_eq_xor]
      refine xor _ _ (ih (by omega)) ?_
      split
      · exact power ⟨k, hk⟩
      · exact zero
  simpa using below 8 le_rfl

theorem zero_fieldMul (b : Byte) : fieldMul 0#8 b = 0#8 := by
  have h := fieldMul_xor_left 0#8 0#8 b
  rwa [BitVec.xor_self, BitVec.xor_self] at h

theorem fieldMul_zero (a : Byte) : fieldMul a 0#8 = 0#8 := by
  have h := fieldMul_xor_right a 0#8 0#8
  rwa [BitVec.xor_self, BitVec.xor_self] at h

theorem fieldMul_one (a : Byte) : fieldMul a 1#8 = a := by
  induction a using byte_xor_induction with
  | power k => revert k; decide
  | xor a a' h h' => rw [fieldMul_xor_left, h, h']

/-- Multiplication by α is the step of R111: a shift, and a reduction when the coefficient of x^8 is 1. -/
theorem fieldMul_two (a : Byte) : fieldMul a 2#8 = if a.getLsbD 7 then a <<< 1 ^^^ 0x1D#8 else a <<< 1 := by
  induction a using byte_xor_induction with
  | power k => revert k; decide
  | xor a a' h h' => rw [fieldMul_xor_left, h, h', BitVec.getLsbD_xor, BitVec.shiftLeft_xor_distrib, xor_if_xor]

/-- A factor α may be taken before or after another product. -/
theorem fieldMul_fieldMul_two (a b : Byte) : fieldMul a (fieldMul b 2#8) = fieldMul (fieldMul a b) 2#8 := by
  induction a using byte_xor_induction with
  | xor a a' h h' => simp only [fieldMul_xor_left, h, h']
  | power i =>
    induction b using byte_xor_induction with
    | xor b b' h h' => simp only [fieldMul_xor_left, fieldMul_xor_right, h, h']
    | power j =>
      rw [fieldMul_two, fieldMul_two]
      revert i j
      decide

/-! ### The powers of the generator and the tables -/

theorem alpha_add (i j : Nat) : alpha (i + j) = fieldMul (alpha i) (alpha j) := by
  induction j with
  | zero => exact (fieldMul_one _).symm
  | succ j ih => rw [← Nat.add_assoc, alpha, ih, alpha, fieldMul_fieldMul_two]

/-- The printed tables, row by row: EXP goes on by a factor α, to EXP[255] also, and LOG undoes EXP. One evaluation of the tables. -/
theorem expAt_succ_and_logAt_expAt :
    ∀ i < 255, GfRom.fixed.expAt (i + 1) = fieldMul (GfRom.fixed.expAt i) 2#8 ∧
      GfRom.fixed.logAt (GfRom.fixed.expAt i) = i := by decide +kernel

theorem expAt_succ {i : Nat} (hi : i < 255) : GfRom.fixed.expAt (i + 1) = fieldMul (GfRom.fixed.expAt i) 2#8 :=
  (expAt_succ_and_logAt_expAt i hi).1

theorem logAt_expAt {i : Nat} (hi : i < 255) : GfRom.fixed.logAt (GfRom.fixed.expAt i) = i :=
  (expAt_succ_and_logAt_expAt i hi).2

theorem expAt_zero : GfRom.fixed.expAt 0 = 1#8 := by decide

theorem expAt_255 : GfRom.fixed.expAt 255 = 1#8 := by decide

theorem logAt_zero : GfRom.fixed.logAt 0#8 = 0 := by decide

/-- A zero at an index `i` gives `i = LOG[0] = 0`, and EXP[0] is 1. -/
theorem expAt_ne_zero {i : Nat} (hi : i < 255) : GfRom.fixed.expAt i ≠ 0#8 := by
  intro hzero
  have hindex : i = 0 := by rw [← logAt_expAt hi, hzero, logAt_zero]
  rw [hindex, expAt_zero] at hzero
  exact absurd hzero (by decide)

/-- R111: the 255 entries are distinct and not 0, so every byte that is not 0 is one of them. -/
theorem exists_expAt_eq {a : Byte} (ha : a ≠ 0#8) : ∃ i < 255, GfRom.fixed.expAt i = a := by
  have hmaps : Set.MapsTo (fun i => (GfRom.fixed.expAt i).toNat) (Finset.range 255) (Finset.Icc 1 255) := by
    intro i hi
    have := expAt_ne_zero (Finset.mem_range.1 hi)
    simp only [Finset.coe_Icc, Set.mem_Icc]
    bv_omega
  have hinj : Set.InjOn (fun i => (GfRom.fixed.expAt i).toNat) (Finset.range 255) := by
    intro i hi j hj heq
    rw [← logAt_expAt (Finset.mem_range.1 hi), BitVec.eq_of_toNat_eq heq, logAt_expAt (Finset.mem_range.1 hj)]
  have ha' : a.toNat ∈ Finset.Icc 1 255 := by
    rw [Finset.mem_Icc]
    bv_omega
  obtain ⟨i, hi, heq⟩ := Finset.surjOn_of_injOn_of_card_le _ hmaps hinj (by simp) ha'
  exact ⟨i, Finset.mem_range.1 hi, BitVec.eq_of_toNat_eq heq⟩

/-- The table EXP holds the powers of α (R111, R113). -/
theorem expAt_eq_alpha {i : Nat} (hi : i ≤ 255) : GfRom.fixed.expAt i = alpha i := by
  induction i with
  | zero => exact expAt_zero
  | succ i ih => rw [expAt_succ hi, ih (by omega), alpha]

theorem alpha_periodic : Function.Periodic alpha 255 := by
  intro n
  rw [alpha_add, ← expAt_eq_alpha le_rfl, expAt_255, fieldMul_one]

theorem expAt_mod (n : Nat) : GfRom.fixed.expAt (n % 255) = alpha n := by
  rw [expAt_eq_alpha (Nat.mod_lt n (by decide)).le, alpha_periodic.map_mod_nat]

theorem alpha_logAt {a : Byte} (ha : a ≠ 0#8) : alpha (GfRom.fixed.logAt a) = a := by
  obtain ⟨i, hi, rfl⟩ := exists_expAt_eq ha
  rw [logAt_expAt hi, expAt_eq_alpha hi.le]

/-- The product by the tables (R114) is the field product (R110). -/
theorem mul_eq_fieldMul (a b : Byte) : GfRom.fixed.mul a b = fieldMul a b := by
  by_cases hzero : a = 0#8 ∨ b = 0#8
  · rw [GfRom.mul, if_pos hzero]
    obtain rfl | rfl := hzero
    · exact (zero_fieldMul b).symm
    · exact (fieldMul_zero a).symm
  · obtain ⟨ha, hb⟩ := not_or.1 hzero
    rw [GfRom.mul, if_neg hzero, expAt_mod, alpha_add, alpha_logAt ha, alpha_logAt hb]

/-! ### GFMUL and the tables of the reset state -/

theorem gfmul_commandForm : CommandForm 0x01#8 true true .gfmul := by
  refine commandForm_of_decode (mask := maskAB) (pattern := 0x00000001#32) (fun w hopc => ?_) fun w hopc => ?_
  · rw [decode, hopc]
    rfl
  · rw [show 0x00000001#32 = assemble 0x01#8 0#8 0#8 from rfl, masked_maskAB]
    simp [hopc]

/-- Settles O15: the tables' product is the field product, and the command's rule writes it and completes. -/
theorem gfmulIsThePolynomialProduct : Obligations.GfmulIsThePolynomialProduct := by
  refine ⟨gfmul_commandForm, fun a b s hrom => ?_⟩
  refine exec_next.2 (.inl ⟨_, runGfmul_ok.2 rfl, ?_⟩)
  rw [hrom, mul_eq_fieldMul]
  rfl

theorem length_expTable : expTable.length = 256 := by
  rw [expTable, List.length_flatten]
  rfl

theorem length_logTable : logTable.length = 256 := by
  rw [logTable, List.length_flatten]
  rfl

/-- Settles O13: EXP goes on by the generator's step, LOG undoes it, and so no entry of EXP is 0. -/
theorem tablesIterateTheGenerator : Obligations.TablesIterateTheGenerator := by
  refine ⟨length_expTable, length_logTable, expAt_zero, expAt_255, logAt_zero, fun i hi => ?_,
    fun i hi => ⟨expAt_ne_zero hi, logAt_expAt hi⟩⟩
  exact (expAt_succ (by omega)).trans (fieldMul_two _)

end Sys2Proof.Machine
end

section
/-! PROOFS of the capacity table: VERFOR chooses the smallest version whose breakpoint is not below LEN (R131, R133), and CAPOF reads the
entry of a version (R130, R134). -/

namespace Sys2Proof.Machine

open Sys2Proof.Claims

/-! ### The forms CMD-N and CMD-A -/

/-- A decoder arm with the mask of CMD-N gives its command a form with no operand (R93, R100). -/
theorem commandForm_of_decode_maskN {opc : Byte} {i : Instr}
    (hdecode : ∀ w, fieldOpc w = opc → decode w = checkForm maskN (assemble opc 0#8 0#8) w i) :
    CommandForm opc false false (fun _ _ => i) := by
  refine commandForm_of_decode hdecode fun w hopc => ?_
  rw [masked_maskN]
  simp only [hopc, true_and, Bool.false_eq_true, false_or]
  tauto

/-- A decoder arm with the mask of CMD-A gives its command a form with the operand A (R93, R100). -/
theorem commandForm_of_decode_maskA {opc : Byte} {mk : Byte → Instr}
    (hdecode : ∀ w, fieldOpc w = opc → decode w = checkForm maskA (assemble opc 0#8 0#8) w (mk (fieldA w))) :
    CommandForm opc true false (fun a _ => mk a) := by
  refine commandForm_of_decode hdecode fun w hopc => ?_
  rw [masked_maskA]
  simp only [hopc, true_and, true_or, Bool.false_eq_true, false_or]
  exact and_comm

theorem verfor_commandForm : CommandForm 0x10#8 false false (fun _ _ => .verfor) := by
  refine commandForm_of_decode_maskN fun w hopc => ?_
  rw [decode, hopc]
  rfl

theorem capof_commandForm : CommandForm 0x11#8 true false (fun a _ => .capof a) := by
  refine commandForm_of_decode_maskA fun w hopc => ?_
  rw [decode, hopc]
  rfl

/-! ### The version of a length -/

theorem breakpoints_mono : ∀ j < 4, ∀ i ≤ j, breakpoints.getD i 0 ≤ breakpoints.getD j 0 := by decide

/-- The breakpoints ascend, so the one just below a version and its own decide that it is the smallest that fits (R131). -/
theorem isVersionFor_of_between {L v : Nat} (hv : 1 ≤ v ∧ v ≤ 5) (hbelow : 1 < v → breakpoints.getD (v - 2) 0 < L)
    (hfits : v < 5 → L ≤ breakpoints.getD (v - 1) 0) : IsVersionFor L v := by
  refine ⟨hv.1, hv.2, fun u hu huv => ?_, hfits⟩
  calc breakpoints.getD (u - 1) 0
    _ ≤ breakpoints.getD (v - 2) 0 := breakpoints_mono (v - 2) (by omega) (u - 1) (by omega)
    _ < L := hbelow (by omega)

theorem isVersionFor_versionFor (L : Nat) : IsVersionFor L (versionFor L) := by
  unfold versionFor
  split_ifs with h17 h32 h53 h78
  · exact isVersionFor_of_between (by decide) (fun h => absurd h (by decide)) fun _ => h17
  · exact isVersionFor_of_between (by decide) (fun _ => not_le.1 h17) fun _ => h32
  · exact isVersionFor_of_between (by decide) (fun _ => not_le.1 h32) fun _ => h53
  · exact isVersionFor_of_between (by decide) (fun _ => not_le.1 h53) fun _ => h78
  · exact isVersionFor_of_between (by decide) (fun _ => not_le.1 h78) fun h => absurd h (by decide)

/-- Settles O17: VERFOR's rule writes version_for of LEN, which is the smallest version that fits, and completes. -/
theorem verforChoosesTheSmallestVersion : Obligations.VerforChoosesTheSmallestVersion :=
  ⟨verfor_commandForm, fun s =>
    ⟨versionFor s.len.toNat, isVersionFor_versionFor _, exec_next.2 (.inl ⟨_, runVerfor_ok.2 rfl, rfl⟩)⟩⟩

/-! ### The capacity of a version -/

theorem versionInRange_iff {v : Nat} : versionInRange v = true ↔ 1 ≤ v ∧ v ≤ 5 := decide_eq_true_iff

/-- The value CAPOF writes is the table's entry, n in the high byte and d in the low one (R130, R134). -/
theorem capWord_eq {v : Nat} (hv : 1 ≤ v ∧ v ≤ 5) : capWord v = BitVec.ofNat 16 (nOf v * 256 + dOf v) := by
  obtain ⟨hlow, hhigh⟩ := hv
  interval_cases v <;> rfl

/-- An operand out of range is IllegalOperand, whatever the command would do (R95, R231). -/
theorem needOperand_illopnd {ok : Bool} (h : ¬ok = true) (k : Result) : needOperand ok k = .error (.err .illopnd) := if_neg h

/-- The word of a command whose one operand is A, as R232 reports it: fields B and C are 0 (R98). -/
theorem assemble_zero_right (opc a : Byte) : assemble opc a 0#8 = 0#16 ++ a ++ opc :=
  congrArg (fun high : BitVec 16 => high ++ a ++ opc) (show 0#8 ++ 0#8 = 0#16 from rfl)

/-- Settles O18: a version in range passes CAPOF's one check, and the word it writes is the table's entry; any other is reported. -/
theorem capofReadsTheCapacityTable : Obligations.CapofReadsTheCapacityTable := by
  refine ⟨capof_commandForm, fun a s hlow hhigh => ?_, fun a s hout => ?_⟩
  · have hv : 1 ≤ a.toNat ∧ a.toNat ≤ 5 := ⟨hlow, hhigh⟩
    refine exec_next.2 (.inl ⟨_, runCapof_ok.2 ⟨versionInRange_iff.2 hv, rfl⟩, ?_⟩)
    rw [capWord_eq hv]
    rfl
  · refine exec_next.2 (.inr ⟨.illopnd, needOperand_illopnd (mt versionInRange_iff.1 hout) _, ?_⟩)
    rw [← assemble_zero_right]
    rfl

end Sys2Proof.Machine
end

section
/-! PROOFS of RSGEN: by Horner's rule the value of a polynomial at a point is linear in its coefficients, so one round of R152 multiplies
the value by the new factor, and the generator takes the values of the root product (R150, R152, R157). -/

namespace Sys2Proof.Machine

open Sys2Proof.Claims

/-! ### The field product commutes -/

/-- A byte is 0 or a power of α (R111). -/
theorem eq_zero_or_eq_alpha (a : Byte) : a = 0#8 ∨ ∃ i, a = alpha i :=
  or_iff_not_imp_left.2 fun ha => ⟨_, (alpha_logAt ha).symm⟩

theorem fieldMul_right_comm (a b c : Byte) : fieldMul (fieldMul a b) c = fieldMul (fieldMul a c) b := by
  obtain rfl | ⟨i, rfl⟩ := eq_zero_or_eq_alpha a
  · simp only [zero_fieldMul]
  obtain rfl | ⟨j, rfl⟩ := eq_zero_or_eq_alpha b
  · simp only [fieldMul_zero, zero_fieldMul]
  obtain rfl | ⟨k, rfl⟩ := eq_zero_or_eq_alpha c
  · simp only [fieldMul_zero, zero_fieldMul]
  simp only [← alpha_add, Nat.add_right_comm]

/-! ### The value of a polynomial at a point -/

/-- Horner's rule: one more coefficient multiplies the value so far by x and is added to it. -/
theorem evalAt_concat (x c : Byte) (p : List Byte) : evalAt x (p ++ [c]) = fieldMul (evalAt x p) x ^^^ c :=
  List.foldl_concat ..

theorem evalAt_xorPoly (x : Byte) {p q : List Byte} (h : p.length = q.length) :
    evalAt x (xorPoly p q) = evalAt x p ^^^ evalAt x q := by
  induction p using List.reverseRecOn generalizing q with
  | nil =>
    obtain rfl := List.length_eq_zero_iff.1 h.symm
    exact BitVec.xor_self.symm
  | append_singleton p a ih =>
    obtain rfl | ⟨q, b, rfl⟩ := List.eq_nil_or_concat' q
    · simp at h
    have hlength : p.length = q.length := by simpa using h
    have hlast : xorPoly (p ++ [a]) (q ++ [b]) = xorPoly p q ++ [a ^^^ b] := List.zipWith_append hlength
    rw [hlast, evalAt_concat, evalAt_concat, evalAt_concat, ih hlength, fieldMul_xor_left]
    ac_rfl

theorem evalAt_scale (x c : Byte) (p : List Byte) : evalAt x (GfRom.fixed.scale c p) = fieldMul (evalAt x p) c := by
  induction p using List.reverseRecOn with
  | nil => exact (zero_fieldMul c).symm
  | append_singleton p a ih =>
    have hlast : GfRom.fixed.scale c (p ++ [a]) = GfRom.fixed.scale c p ++ [fieldMul a c] := by
      simp [GfRom.scale, mul_eq_fieldMul]
    rw [hlast, evalAt_concat, evalAt_concat, ih, fieldMul_xor_left, fieldMul_right_comm]

/-- A coefficient 0 after the others multiplies the polynomial by x. -/
theorem evalAt_append_zero (x : Byte) (p : List Byte) : evalAt x (p ++ [0#8]) = fieldMul (evalAt x p) x := by
  rw [evalAt_concat, BitVec.xor_zero]

theorem evalAt_zero_cons (x : Byte) (p : List Byte) : evalAt x (0#8 :: p) = evalAt x p := by
  simp [evalAt, zero_fieldMul]

/-! ### The generator -/

/-- One round of R152 multiplies the value at every point by (x − α^i). -/
theorem evalAt_timesFactor (x : Byte) (g : List Byte) {i : Nat} (hi : i ≤ 255) :
    evalAt x (GfRom.fixed.timesFactor g i) = fieldMul (evalAt x g) (x ^^^ alpha i) := by
  rw [GfRom.timesFactor, evalAt_xorPoly x (by simp), evalAt_append_zero, evalAt_zero_cons, evalAt_scale, expAt_eq_alpha hi,
    fieldMul_xor_right]

theorem getElem?_zero_timesFactor (t : GfRom) (g : List Byte) (i : Nat) {c : Byte} (h : g[0]? = some c) :
    (t.timesFactor g i)[0]? = some c := by
  cases g with
  | nil => simp at h
  | cons a g => simpa [GfRom.timesFactor, xorPoly] using h

theorem buildGen_succ (t : GfRom) (n : Nat) : t.buildGen (n + 1) = t.timesFactor (t.buildGen n) n := by
  rw [GfRom.buildGen, List.range_succ, List.foldl_append]
  rfl

/-- The generator is monic, whatever the tables hold. -/
theorem getElem?_zero_buildGen (t : GfRom) (n : Nat) : (t.buildGen n)[0]? = some 1#8 := by
  induction n with
  | zero => rfl
  | succ n ih =>
    rw [buildGen_succ]
    exact getElem?_zero_timesFactor t _ n ih

/-- The generator of degree n takes at every point the value of (x − α^0)···(x − α^(n−1)) (R150). -/
theorem evalAt_buildGen (x : Byte) {n : Nat} (hn : n ≤ 256) : evalAt x (GfRom.fixed.buildGen n) = rootProduct x n := by
  induction n with
  | zero => simp [GfRom.buildGen, evalAt, rootProduct, zero_fieldMul]
  | succ n ih => rw [buildGen_succ, evalAt_timesFactor x _ (by omega), ih (by omega), rootProduct]

/-! ### RSGEN -/

theorem rsgen_commandForm : CommandForm 0x30#8 true false (fun a _ => .rsgen a) := by
  refine commandForm_of_decode_maskA fun w hopc => ?_
  rw [decode, hopc]
  rfl

theorem degreeInRange_iff {n : Byte} : degreeInRange n = true ↔ n ≤ 32#8 := by
  rw [degreeInRange, decide_eq_true_iff, BitVec.le_def]
  rfl

theorem read_putGen (s : State) (n : Nat) {k : Nat} (hk : k ≤ n) :
    (s.putGen n).mem.read (0x300 + k) = (s.rom.buildGen n)[k]? := by
  have hin : genBase ≤ 0x300 + k ∧ 0x300 + k < genBase + (s.rom.buildGen n).length := by
    rw [buildGen_length, genBase]
    omega
  rw [State.putGen_mem, Memory.read_writeBytes, if_pos hin, genBase, Nat.add_sub_cancel_left]

theorem read_putGen_outside (s : State) (n : Nat) {a : Nat} (ha : a < 0x300 ∨ 0x300 + n < a) :
    (s.putGen n).mem.read a = s.mem.read a := by
  have hout : ¬(genBase ≤ a ∧ a < genBase + (s.rom.buildGen n).length) := by
    rw [buildGen_length, genBase]
    omega
  rw [State.putGen_mem, Memory.read_writeBytes, if_neg hout]

/-- Settles O20: a degree in range passes RSGEN's one check, and what its rule writes is the generator; any other is reported. -/
theorem rsgenBuildsTheRootProduct : Obligations.RsgenBuildsTheRootProduct := by
  refine ⟨rsgen_commandForm, fun n s hout => ?_, fun n s hn hrom => ?_⟩
  · refine exec_next.2 (.inr ⟨.illopnd, needOperand_illopnd (mt degreeInRange_iff.1 hout) _, ?_⟩)
    rw [← assemble_zero_right]
    rfl
  · have hdegree : n.toNat ≤ 256 := n.isLt.le
    refine ⟨(s.putGen n.toNat).complete, s.rom.buildGen n.toNat,
      exec_next.2 (.inl ⟨_, runRsgen_ok.2 ⟨degreeInRange_iff.2 hn, rfl⟩, rfl⟩), rfl, buildGen_length _ _,
      getElem?_zero_buildGen _ _, fun x => ?_, fun k hk => read_putGen s n.toNat hk,
      fun a ha => read_putGen_outside s n.toNat ha⟩
    rw [hrom]
    exact evalAt_buildGen x hdegree

end Sys2Proof.Machine
end

section
/-! PROOFS of the structure commands: MXINIT, MXFIND, MXSEP, MXTIME and MXDARK by the cells they write (R171 to R176). A placement's list
of writes draws a set of cells with a value for each; what the plane then holds follows from the set and the values alone. -/

namespace Sys2Proof.Machine

open Sys2Proof.Claims

/-! ### What a list of writes draws -/

/-- The writes name exactly the cells of a set, and each writes the value that its cell is to have. -/
structure Draws (ws : List CellWrite) (cells : Nat → Nat → Prop) (value : Nat → Nat → Bool) : Prop where
  named (r c : Nat) : (∃ w ∈ ws, w.row = r ∧ w.col = c) ↔ cells r c
  values : ∀ w ∈ ws, w.val = value w.row w.col

section Draws

variable {ws : List CellWrite} {cells : Nat → Nat → Prop} {value : Nat → Nat → Bool} {r c : Nat}

/-- A cell of the set holds its value after the writes: the last write of the cell has it. -/
theorem Draws.get_setAll (h : Draws ws cells value) (p : Plane) (hin : cells r c) :
    (p.setAll ws).get r c = some (value r c) := by
  obtain ⟨w, hw, hrow, hcol⟩ := (h.named r c).2 hin
  have hne : ws.filter (fun w => w.row == r && w.col == c) ≠ [] :=
    List.ne_nil_of_mem (List.mem_filter.2 ⟨hw, by simp [hrow, hcol]⟩)
  have hvalue : ∀ x ∈ ws.filter (fun w => w.row == r && w.col == c), x.val = value r c := by
    intro x hx
    obtain ⟨hxw, hat⟩ := List.mem_filter.1 hx
    obtain ⟨rfl, rfl⟩ : x.row = r ∧ x.col = c := by simpa using hat
    exact h.values x hxw
  rw [Plane.get_setAll, List.getLast?_eq_some_getLast hne, Option.map_some, hvalue _ (List.getLast_mem hne), Option.some_or]

/-- A cell outside the set keeps what it held. -/
theorem Draws.get_setAll_outside (h : Draws ws cells value) (p : Plane) (hout : ¬cells r c) :
    (p.setAll ws).get r c = p.get r c :=
  Plane.get_setAll_of_not_named (fun w hw hat => hout ((h.named r c).1 ⟨w, hw, hat⟩)) p

/-- Reserving the cells of a placement draws the same set, every cell 1 (R170). -/
theorem Draws.reserveAll (h : Draws ws cells value) : Draws (reserveAll ws) cells (fun _ _ => true) where
  named r c := by
    rw [← h.named r c]
    simp [Machine.reserveAll]
  values := by simp [Machine.reserveAll]

/-- Writes of one value to box cells draw the cells where the boxes lie. -/
theorem draws_reserveBox {bs : List BoxCell} (hcells : ∀ r c, (∃ b ∈ bs, b.row = r ∧ b.col = c) ↔ cells r c) (v : Bool) :
    Draws (reserveBox bs v) cells (fun _ _ => v) where
  named r c := by
    rw [← hcells r c]
    simp [reserveBox]
  values := by simp [reserveBox]

end Draws

/-! ### The finders' boxes by their cells -/

/-- The box cells of one finder: those of the 9 by 9 square around its 7 by 7 that lie inside the matrix (R173). -/
theorem mem_boxCells_iff {side : Nat} {o : Nat × Nat} {b : BoxCell} :
    b ∈ boxCells side o ↔ b.dr1 < 9 ∧ b.dc1 < 9 ∧
      b.row + 1 = o.1 + b.dr1 ∧ b.col + 1 = o.2 + b.dc1 ∧ b.row < side ∧ b.col < side := by
  obtain ⟨dr, dc, row, col⟩ := b
  simp only [boxCells, List.mem_flatMap, List.mem_filterMap, List.mem_range, Option.ite_none_right_eq_some, Option.some.injEq,
    BoxCell.mk.injEq]
  constructor
  · rintro ⟨_, hdr, _, hdc, hin, rfl, rfl, rfl, rfl⟩
    omega
  · rintro ⟨hdr, hdc, hrow, hcol, hr, hc⟩
    exact ⟨dr, hdr, dc, hdc, by omega, rfl, rfl, by omega, by omega⟩

theorem mem_allBoxCells_iff {side : Nat} {b : BoxCell} :
    b ∈ allBoxCells side ↔
      b ∈ boxCells side (0, 0) ∨ b ∈ boxCells side (0, side - 7) ∨ b ∈ boxCells side (side - 7, 0) := by
  simp [allBoxCells, finderOrigins]

theorem margin_iff {b : BoxCell} : b.margin = true ↔ b.dr1 = 0 ∨ b.dr1 = 8 ∨ b.dc1 = 0 ∨ b.dc1 = 8 := by
  simp [BoxCell.margin, or_assoc]

section Boxes

variable {side r c : Nat} {b : BoxCell} (hside : 21 ≤ side)

include hside

/-- A finder's box clipped by the matrix is the 8 by 8 square of its corner (R173). -/
theorem exists_boxCell_iff : (∃ b ∈ allBoxCells side, b.row = r ∧ b.col = c) ↔ InCorner 8 side r c := by
  simp only [mem_allBoxCells_iff, mem_boxCells_iff]
  constructor
  · rintro ⟨b, hb, rfl, rfl⟩
    unfold InCorner
    omega
  · rintro (hin | hin | hin)
    · exact ⟨⟨r + 1, c + 1, r, c⟩, .inl (by dsimp only; omega), rfl, rfl⟩
    · exact ⟨⟨r + 1, c + 8 - side, r, c⟩, .inr (.inl (by dsimp only; omega)), rfl, rfl⟩
    · exact ⟨⟨r + 8 - side, c + 1, r, c⟩, .inr (.inr (by dsimp only; omega)), rfl, rfl⟩

/-- The margin is what of a box lies outside the 7 by 7 finders: the three boxes are apart (R173, R174). -/
theorem margin_iff_not_inCorner (hb : b ∈ allBoxCells side) : b.margin = true ↔ ¬InCorner 7 side b.row b.col := by
  rw [margin_iff, InCorner]
  simp only [mem_allBoxCells_iff, mem_boxCells_iff] at hb
  omega

/-- Along one axis an offset in a finder and the distance from the nearer edge of the matrix are equally far from the centre's. -/
theorem absDiff_eq_natAbs_from_edge {d x : Nat} (hlow : 1 ≤ d) (hhigh : d ≤ 7) (hx : x + 1 = d ∨ x + 1 = side - 7 + d) :
    absDiff (d - 1) 3 = Int.natAbs (((if x < 7 then x else side - 1 - x : Nat) : Int) - 3) := by
  unfold absDiff
  split <;> omega

/-- The rings are the same counted from a finder's own corner and from the edges of the matrix that the finder touches (R172). -/
theorem finderValue_eq_finderDark (hb : b ∈ allBoxCells side) (hin : InCorner 7 side b.row b.col) :
    finderValue (b.dr1 - 1) (b.dc1 - 1) = finderDark side b.row b.col := by
  have hmargin := mt (margin_iff_not_inCorner hside hb).1 (not_not_intro hin)
  rw [margin_iff] at hmargin
  simp only [mem_allBoxCells_iff, mem_boxCells_iff] at hb
  rw [finderValue, absDiff_eq_natAbs_from_edge hside (x := b.row) (by omega) (by omega) (by omega),
    absDiff_eq_natAbs_from_edge hside (x := b.col) (by omega) (by omega) (by omega)]
  rfl

theorem draws_allBoxCells : Draws (reserveBox (allBoxCells side) true) (InCorner 8 side) (fun _ _ => true) :=
  draws_reserveBox (fun _ _ => exists_boxCell_iff hside) true

theorem draws_separatorCells (v : Bool) :
    Draws (reserveBox (separatorCells side) v) (fun r c => InCorner 8 side r c ∧ ¬InCorner 7 side r c) (fun _ _ => v) := by
  refine draws_reserveBox (fun r c => ?_) v
  rw [← exists_boxCell_iff hside]
  constructor
  · rintro ⟨b, hb, rfl, rfl⟩
    obtain ⟨hbox, hmargin⟩ := List.mem_filter.1 hb
    exact ⟨⟨b, hbox, rfl, rfl⟩, (margin_iff_not_inCorner hside hbox).1 hmargin⟩
  · rintro ⟨⟨b, hbox, rfl, rfl⟩, hout⟩
    exact ⟨b, List.mem_filter.2 ⟨hbox, (margin_iff_not_inCorner hside hbox).2 hout⟩, rfl, rfl⟩

theorem mem_finderWrites_iff {w : CellWrite} :
    w ∈ finderWrites side ↔
      ∃ b ∈ allBoxCells side, InCorner 7 side b.row b.col ∧ w = ⟨b.row, b.col, finderDark side b.row b.col⟩ := by
  simp only [finderWrites, List.mem_map, List.mem_filter, and_assoc]
  refine exists_congr fun b => and_congr_right fun hb => ?_
  rw [Bool.not_eq_true', ← Bool.not_eq_true, margin_iff_not_inCorner hside hb, not_not]
  refine and_congr_right fun hin => ?_
  rw [finderValue_eq_finderDark hside hb hin, eq_comm]

theorem draws_finderWrites : Draws (finderWrites side) (InCorner 7 side) (finderDark side) where
  named r c := by
    simp only [mem_finderWrites_iff hside]
    constructor
    · rintro ⟨_, ⟨b, -, hin, rfl⟩, rfl, rfl⟩
      exact hin
    · intro hin
      have hbox : InCorner 8 side r c := by
        unfold InCorner at hin ⊢
        omega
      obtain ⟨b, hb, rfl, rfl⟩ := (exists_boxCell_iff hside).2 hbox
      exact ⟨_, ⟨b, hb, hin, rfl⟩, rfl, rfl⟩
  values w hw := by
    obtain ⟨b, -, -, rfl⟩ := (mem_finderWrites_iff hside).1 hw
    rfl

end Boxes

/-! ### The timing cells -/

theorem mem_timingWrites_iff {side : Nat} {w : CellWrite} :
    w ∈ timingWrites side ↔ ∃ i, 8 ≤ i ∧ i + 9 ≤ side ∧ (w = ⟨6, i, i % 2 == 0⟩ ∨ w = ⟨i, 6, i % 2 == 0⟩) := by
  simp only [timingWrites, timingIndices, List.mem_flatMap, List.mem_filter, List.mem_range, Bool.and_eq_true, decide_eq_true_eq,
    List.mem_cons, List.not_mem_nil, or_false, and_assoc]
  exact exists_congr fun i => ⟨And.right, fun h => ⟨by omega, h⟩⟩

theorem draws_timingWrites {side : Nat} (hside : 21 ≤ side) :
    Draws (timingWrites side) (InTiming side) (fun r c => decide ((r + c) % 2 = 0)) where
  named r c := by
    simp only [mem_timingWrites_iff]
    constructor
    · rintro ⟨_, ⟨i, hlow, hhigh, rfl | rfl⟩, rfl, rfl⟩
      · exact .inl ⟨rfl, hlow, Nat.le_sub_of_add_le hhigh⟩
      · exact .inr ⟨rfl, hlow, Nat.le_sub_of_add_le hhigh⟩
    · rintro (⟨rfl, hlow, hhigh⟩ | ⟨rfl, hlow, hhigh⟩)
      · exact ⟨_, ⟨c, hlow, by omega, .inl rfl⟩, rfl, rfl⟩
      · exact ⟨_, ⟨r, hlow, by omega, .inr rfl⟩, rfl, rfl⟩
  values w hw := by
    obtain ⟨i, -, -, rfl | rfl⟩ := mem_timingWrites_iff.1 hw
    all_goals
      rw [Bool.eq_iff_iff, beq_iff_eq, decide_eq_true_iff]
      dsimp only
      omega

/-! ### The five commands -/

/-- Without a matrix the check of SIZE reports NotInitialised, whatever the command would do (R33, R233). -/
theorem needMatrix_noinit {s : State} (hsize : s.size = 0#6) (k : Nat → Result) : needMatrix s k = .error (.err .noinit) :=
  if_pos hsize

/-- A command whose first check is SIZE reports it, with its own word. -/
theorem exec_noinit {i : Instr} {s : State} (k : Nat → Result) (heffect : effect i s = needMatrix s k) (hsize : s.size = 0#6) :
    exec i s = .next (s.reportError .noinit (encode i)) :=
  exec_next.2 (.inr ⟨.noinit, heffect.trans (needMatrix_noinit hsize k), rfl⟩)

/-- A matrix is at least 21 cells a side (R132). -/
theorem State.Inv.le_side {s : State} (hinv : s.Inv) (hsize : s.size ≠ 0#6) : 21 ≤ s.size.toNat := by
  have := hinv.size.side hsize
  omega

theorem mxinit_commandForm : CommandForm 0x40#8 true false (fun a _ => .mxinit a) := by
  refine commandForm_of_decode_maskA fun w hopc => ?_
  rw [decode, hopc]
  rfl

theorem mxfind_commandForm : CommandForm 0x41#8 false false (fun _ _ => .mxfind) := by
  refine commandForm_of_decode_maskN fun w hopc => ?_
  rw [decode, hopc]
  rfl

theorem mxsep_commandForm : CommandForm 0x42#8 false false (fun _ _ => .mxsep) := by
  refine commandForm_of_decode_maskN fun w hopc => ?_
  rw [decode, hopc]
  rfl

theorem mxtime_commandForm : CommandForm 0x43#8 false false (fun _ _ => .mxtime) := by
  refine commandForm_of_decode_maskN fun w hopc => ?_
  rw [decode, hopc]
  rfl

theorem mxdark_commandForm : CommandForm 0x44#8 false false (fun _ _ => .mxdark) := by
  refine commandForm_of_decode_maskN fun w hopc => ?_
  rw [decode, hopc]
  rfl

/-- Settles O23: a version in range passes MXINIT's one check, and both planes are the filled plane; any other is reported. -/
theorem mxinitClearsAWholeMatrix : Obligations.MxinitClearsAWholeMatrix := by
  refine ⟨mxinit_commandForm, fun a s hlow hhigh => ?_, fun a s hout => ?_⟩
  · have hv : versionInRange a.toNat = true := versionInRange_iff.2 ⟨hlow, hhigh⟩
    refine ⟨_, exec_next.2 (.inl ⟨_, runMxinit_ok.2 ⟨hv, rfl⟩, rfl⟩), rfl, fun r hr c hc => ?_⟩
    have hcell : (Plane.fill false).get r c = some false := (Plane.get_fill false r c).trans (if_pos ⟨hr, hc⟩)
    exact ⟨hcell, hcell⟩
  · refine exec_next.2 (.inr ⟨.illopnd, needOperand_illopnd (mt versionInRange_iff.1 hout) _, ?_⟩)
    rw [← assemble_zero_right]
    rfl

/-- Settles O24: MXFIND draws the corners of 8 by 8 cells in R and the finders' rings in M. -/
theorem mxfindDrawsTheThreeFinders : Obligations.MxfindDrawsTheThreeFinders := by
  refine ⟨mxfind_commandForm, fun s hsize => exec_noinit (fun _ => .ok s.placeFinders) rfl hsize, fun s hinv hsize => ?_⟩
  have hside := hinv.le_side hsize
  refine ⟨_, exec_next.2 (.inl ⟨_, runMxfind_ok.2 ⟨hsize, rfl⟩, rfl⟩), rfl, fun r c => ⟨?_, ?_, ?_, ?_⟩⟩
  · exact (draws_allBoxCells hside).get_setAll _
  · exact (draws_allBoxCells hside).get_setAll_outside _
  · exact (draws_finderWrites hside).get_setAll _
  · exact (draws_finderWrites hside).get_setAll_outside _

/-- Settles O25: MXSEP draws the corners' cells outside the finders light in M and reserved in R. -/
theorem mxsepFramesTheFinders : Obligations.MxsepFramesTheFinders := by
  refine ⟨mxsep_commandForm, fun s hsize => exec_noinit (fun _ => .ok s.placeSeparators) rfl hsize, fun s hinv hsize => ?_⟩
  have hdraws := draws_separatorCells (hinv.le_side hsize)
  exact ⟨_, exec_next.2 (.inl ⟨_, runMxsep_ok.2 ⟨hsize, rfl⟩, rfl⟩), rfl, fun r c =>
    ⟨fun hin => ⟨(hdraws false).get_setAll _ hin, (hdraws true).get_setAll _ hin⟩,
      fun hout => ⟨(hdraws false).get_setAll_outside _ hout, (hdraws true).get_setAll_outside _ hout⟩⟩⟩

/-- Settles O26: MXTIME draws the timing cells by the parity of their index in M, and reserves them in R. -/
theorem mxtimeAlternatesBetweenTheFinders : Obligations.MxtimeAlternatesBetweenTheFinders := by
  refine ⟨mxtime_commandForm, fun s hsize => exec_noinit (fun _ => .ok s.placeTiming) rfl hsize, fun s hinv hsize => ?_⟩
  have hdraws := draws_timingWrites (hinv.le_side hsize)
  exact ⟨_, exec_next.2 (.inl ⟨_, runMxtime_ok.2 ⟨hsize, rfl⟩, rfl⟩), rfl, fun r c =>
    ⟨fun hin => ⟨hdraws.get_setAll _ hin, hdraws.reserveAll.get_setAll _ hin⟩,
      fun hout => ⟨hdraws.get_setAll_outside _ hout, hdraws.reserveAll.get_setAll_outside _ hout⟩⟩⟩

/-- Settles O27: MXDARK is one write to each plane, of the same cell. -/
theorem mxdarkSetsOneCell : Obligations.MxdarkSetsOneCell := by
  refine ⟨mxdark_commandForm, fun s hsize => exec_noinit (fun _ => .ok s.placeDark) rfl hsize, fun s hsize => ?_⟩
  refine ⟨_, exec_next.2 (.inl ⟨_, runMxdark_ok.2 ⟨hsize, rfl⟩, rfl⟩), rfl, fun r c => ⟨?_, fun hne => ?_⟩⟩
  · rintro ⟨rfl, rfl⟩
    exact ⟨Plane.get_set_same .., Plane.get_set_same ..⟩
  · exact ⟨Plane.get_set_other _ _ hne, Plane.get_set_other _ _ hne⟩

end Sys2Proof.Machine
end

section
/-! PROOFS of the mask commands: MSKAPPLY, MSKSCORE, PENALTY and MSKSEL (R200 to R207). A masked plane is known cell by cell, the loop of
line_penalty adds up a line's maximal runs, and on a written matrix every scratch copy and its score have a closed form. -/

namespace Sys2Proof.Machine

open Sys2Proof.Claims

/-! ### Masking, cell by cell (R200, R201) -/

theorem maskCond_iff {m r c : Nat} : maskCond m r c = true ↔ Condition m r c := by
  unfold maskCond
  split
  case h_9 =>
    -- a mask id over 7 names no formula
    simp_all [Condition]
  all_goals simp [Condition]

section Masking

variable {reserved x : Plane} {side m r c : Nat}

theorem maskedCell_inverted (h : r < side ∧ c < side ∧ reserved.get r c = some false ∧ Condition m r c) :
    maskedCell reserved x side m r c = (x.get r c).map (!·) := by
  obtain ⟨hr, hc, hfree, hcond⟩ := h
  simp only [maskedCell, hr, hc, hfree, maskCond_iff.2 hcond, and_self, if_true]

theorem maskedCell_kept (h : ¬(r < side ∧ c < side ∧ reserved.get r c = some false ∧ Condition m r c)) :
    maskedCell reserved x side m r c = x.get r c := by
  unfold maskedCell
  split
  · rename_i hin
    split
    · rename_i hfree
      exact if_neg fun hcond => h ⟨hin.1, hin.2, hfree, maskCond_iff.1 hcond⟩
    · rfl
  · rfl

theorem isMasked_maskedCell (reserved x : Plane) (side m : Nat) :
    IsMasked reserved x side m (maskedCell reserved x side m) :=
  fun _ _ => ⟨maskedCell_inverted, maskedCell_kept⟩

/-- The built plane has the same cells: outside its 37 rows and columns neither it nor x has one. -/
theorem get_build_maskedCell (hx : x.wf) :
    (Plane.build (maskedCell reserved x side m)).get = maskedCell reserved x side m := by
  funext r c
  rw [Plane.get_build]
  split
  · rfl
  · rename_i hout
    have hnone : ¬(maskedCell reserved x side m r c).isSome = true := by
      simp [maskedCell_isSome, Plane.get_outside hx hout]
    exact (Option.not_isSome_iff_eq_none.1 hnone).symm

theorem isMasked_build (hx : x.wf) : IsMasked reserved x side m (Plane.build (maskedCell reserved x side m)).get := by
  rw [get_build_maskedCell hx]
  exact isMasked_maskedCell reserved x side m

end Masking

/-! ### The penalty of a line and of a plane (R202, R203) -/

theorem linePoints_replicate {run : Nat} (hrun : run ≠ 0) (x : Bool) : linePoints (List.replicate run x) = runPenalty run := by
  have hone : (List.replicate run x).splitBy (· == ·) = [List.replicate run x] :=
    List.splitBy_of_isChain (by simpa using hrun) (List.isChain_replicate_of_rel run (by simp))
  simp [linePoints, hone, runPenalty]

/-- A line splits where two neighbours differ. -/
theorem linePoints_append {xs ys : List Bool} (h : ∀ x ∈ xs.getLast?, ∀ y ∈ ys.head?, (x == y) = false) :
    linePoints (xs ++ ys) = linePoints xs + linePoints ys := by
  simp only [linePoints, List.splitBy_append h, List.map_append, List.sum_append]

/-- The loop of line_penalty counts a line that begins with the run it has seen so far. -/
theorem linePenaltyFrom_eq_linePoints (prev : Bool) {run : Nat} (hrun : run ≠ 0) (xs : List Bool) :
    linePenaltyFrom prev run xs = linePoints (List.replicate run prev ++ xs) := by
  induction xs generalizing prev run with
  | nil => rw [linePenaltyFrom, List.append_nil, linePoints_replicate hrun]
  | cons x xs ih =>
    unfold linePenaltyFrom
    split_ifs with hx
    · rw [hx, ih prev run.succ_ne_zero, List.replicate_succ', List.append_assoc, List.singleton_append]
    · have hdiffer : ∀ y ∈ (List.replicate run prev).getLast?, ∀ z ∈ (x :: xs).head?, (y == z) = false := by
        simpa [List.getLast?_replicate, hrun] using Ne.symm hx
      rw [linePoints_append hdiffer, linePoints_replicate hrun, ih x one_ne_zero]
      rfl

theorem linePenalty_eq_linePoints (xs : List Bool) : linePenalty xs = linePoints xs := by
  cases xs with
  | nil => rfl
  | cons x xs => exact linePenaltyFrom_eq_linePoints x one_ne_zero xs

section Penalty

variable {x : Plane} {side : Nat}

theorem get_eq_some_moduleAt (hx : x.AllWritten) {r c : Nat} (hr : r < maxSize) (hc : c < maxSize) :
    x.get r c = some (moduleAt x r c) := by
  obtain ⟨v, hv⟩ := Option.isSome_iff_exists.1 (hx r hr c hc)
  rw [moduleAt, hv, Option.getD_some]

theorem row_eq_some (hx : x.AllWritten) (hside : side ≤ maxSize) {r : Nat} (hr : r < side) :
    x.row side r = some ((List.range side).map fun c => moduleAt x r c) := by
  rw [Plane.row, allPresent_eq_some, List.map_map]
  exact List.map_congr_left fun c hc =>
    get_eq_some_moduleAt hx (hr.trans_le hside) ((List.mem_range.1 hc).trans_le hside)

theorem col_eq_some (hx : x.AllWritten) (hside : side ≤ maxSize) {c : Nat} (hc : c < side) :
    x.col side c = some ((List.range side).map fun r => moduleAt x r c) := by
  rw [Plane.col, allPresent_eq_some, List.map_map]
  exact List.map_congr_left fun r hr =>
    get_eq_some_moduleAt hx ((List.mem_range.1 hr).trans_le hside) (hc.trans_le hside)

theorem lines_eq_some (hx : x.AllWritten) (hside : side ≤ maxSize) :
    x.lines side = some (((List.range side).map fun r => (List.range side).map fun c => moduleAt x r c) ++
      (List.range side).map fun c => (List.range side).map fun r => moduleAt x r c) := by
  rw [Plane.lines, allPresent_eq_some, List.map_append, List.map_map, List.map_map]
  exact congrArg₂ (· ++ ·) (List.map_congr_left fun r hr => row_eq_some hx hside (List.mem_range.1 hr))
    (List.map_congr_left fun c hc => col_eq_some hx hside (List.mem_range.1 hc))

/-- The penalty of a written plane is that of its grid of modules. -/
theorem penalty_eq_gridPoints (hx : x.AllWritten) (hside : side ≤ maxSize) :
    x.penalty side = some (gridPoints side (moduleAt x)) := by
  have hline : linePenalty = linePoints := funext linePenalty_eq_linePoints
  rw [Plane.penalty, lines_eq_some hx hside, Option.map_some, hline, List.map_append, List.sum_append, List.map_map,
    List.map_map]
  rfl

end Penalty

/-! ### Masked copies and their scores (R201, R205, R207) -/

/-- M with mask m, as a scratch copy of it (R201). -/
def State.maskedCopy (s : State) (m : Nat) : Plane := Plane.build (maskedCell s.planeR s.planeM s.size.toNat m)

/-- The penalty of the copy of M with mask m (R205, R207). -/
def State.maskScore (s : State) (m : Nat) : Nat := gridPoints s.size.toNat (moduleAt (s.maskedCopy m))

section Written

variable {s : State}

theorem isScore_maskScore (hinv : s.Inv) (m : Nat) : IsScore s m (s.maskScore m) :=
  ⟨(s.maskedCopy m).get, isMasked_build hinv.shapeM, rfl⟩

variable (hinv : s.Inv) (hsize : s.size ≠ 0#6) (m : Nat)

include hinv hsize

theorem applyMask_eq_maskedCopy : applyMask s.planeR s.planeM s.size.toNat m = some (s.maskedCopy m) :=
  applyMask_eq_some.2
    ⟨maskReadable_of_allWritten (hinv.writtenR hsize) (hinv.writtenM hsize) hinv.size.le_maxSize m, rfl⟩

/-- With a matrix, MSKAPPLY's mask makes M the masked copy. -/
theorem maskMatrix_eq : s.maskMatrix m = some { s with planeM := s.maskedCopy m } := by
  rw [State.maskMatrix, applyMask_eq_maskedCopy hinv hsize m]
  rfl

theorem penalty_maskedCopy : (s.maskedCopy m).penalty s.size.toNat = some (s.maskScore m) :=
  penalty_eq_gridPoints (applyMask_allWritten (applyMask_eq_maskedCopy hinv hsize m) (hinv.writtenM hsize)) hinv.size.le_maxSize

/-- With a matrix, scoring a mask gives the masked copy and its penalty. -/
theorem scoreMask_eq : s.scoreMask m = some (s.maskedCopy m, s.maskScore m) := by
  rw [State.scoreMask, applyMask_eq_maskedCopy hinv hsize m]
  exact congrArg (Option.map _) (penalty_maskedCopy hinv hsize m)

/-- With a matrix, MSKSEL scores every mask on a copy of its own. -/
theorem selectMask_eq :
    s.selectMask = some (s.putSelection ((List.range 8).map fun m => (s.maskedCopy m, s.maskScore m))) := by
  have hall : s.scoreAll = some ((List.range 8).map fun m => (s.maskedCopy m, s.maskScore m)) := by
    rw [State.scoreAll, allPresent_eq_some, List.map_map]
    exact List.map_congr_left fun m _ => scoreMask_eq hinv hsize m
  rw [State.selectMask, hall]
  rfl

end Written

/-! ### The chosen mask and the table of scores (R207) -/

theorem firstMinimum_bestMask {scores : List Nat} (h : scores.length = 8) :
    FirstMinimum (fun m => scores.getD m 0) (bestMask scores) := by
  cases scores with
  | nil => cases h
  | cons p ps =>
    have hbest := bestFrom_spec ps [p] 0 (by simp) (by simp) (by simp)
    rw [List.singleton_append, h] at hbest
    exact hbest

theorem firstMinimum_congr {score score' : Nat → Nat} {best : Nat} (h : FirstMinimum score best)
    (heq : ∀ m < 8, score m = score' m) : FirstMinimum score' best := by
  obtain ⟨hlt, hleast, hfirst⟩ := h
  refine ⟨hlt, fun m hm => ?_, fun m hm => ?_⟩
  · rw [← heq best hlt, ← heq m hm]
    exact hleast m hm
  · rw [← heq best hlt, ← heq m (hm.trans hlt)]
    exact hfirst m hm

/-- MASKID is the first least of eight scores: its 3 bits hold the index. -/
theorem firstMinimum_maskid_putSelection (s : State) {res : List (Plane × Nat)} (h : res.length = 8) :
    FirstMinimum (fun m => (res.map Prod.snd).getD m 0) (s.putSelection res).maskid.toNat := by
  have hbest := firstMinimum_bestMask (scores := res.map Prod.snd) (by simpa using h)
  rwa [State.putSelection_maskid, BitVec.toNat_ofNat, Nat.mod_eq_of_lt hbest.1]

theorem penaltyOf_putSelection (s : State) (res : List (Plane × Nat)) {m : Nat} (hm : m < 8) :
    (s.putSelection res).penaltyOf m = BitVec.ofNat 16 ((res.map Prod.snd).getD m 0) := by
  simp [State.penaltyOf, penaltyTable, hm]

theorem penaltyOf_putScore_same (s : State) (res : Plane × Nat) {m : Nat} (hm : m < 8) :
    (s.putScore m res).penaltyOf m = BitVec.ofNat 16 res.2 := by
  simp [State.penaltyOf, hm]

theorem penaltyOf_putScore_other (s : State) (res : Plane × Nat) {m k : Nat} (h : k ≠ m) :
    (s.putScore m res).penaltyOf k = s.penaltyOf k := by
  simp [State.penaltyOf, List.getElem?_set_ne h.symm]

/-! ### The four commands -/

theorem mskapply_commandForm : CommandForm 0x50#8 true false (fun a _ => .mskapply a) := by
  refine commandForm_of_decode_maskA fun w hopc => ?_
  rw [decode, hopc]
  rfl

theorem mskscore_commandForm : CommandForm 0x51#8 true false (fun a _ => .mskscore a) := by
  refine commandForm_of_decode_maskA fun w hopc => ?_
  rw [decode, hopc]
  rfl

theorem penalty_commandForm : CommandForm 0x52#8 false false (fun _ _ => .penalty) := by
  refine commandForm_of_decode_maskN fun w hopc => ?_
  rw [decode, hopc]
  rfl

theorem msksel_commandForm : CommandForm 0x53#8 false false (fun _ _ => .msksel) := by
  refine commandForm_of_decode_maskN fun w hopc => ?_
  rw [decode, hopc]
  rfl

theorem maskInRange_iff {a : Byte} : maskInRange a = true ↔ a ≤ 7#8 := by
  rw [maskInRange, decide_eq_true_iff, BitVec.le_def]
  rfl

section MaskOperand

variable {i : Instr} {a : Byte} {s : State} {k : Nat → Result}

/-- A command that checks its mask operand first reports one over 7, with its own word. -/
theorem exec_mask_illopnd (heffect : effect i s = needOperand (maskInRange a) (needMatrix s k)) (hout : ¬a ≤ 7#8) :
    exec i s = .next (s.reportError .illopnd (encode i)) :=
  exec_next.2 (.inr ⟨.illopnd, heffect.trans (needOperand_illopnd (mt maskInRange_iff.1 hout) _), rfl⟩)

/-- With a mask operand in range, SIZE is the check that decides. -/
theorem exec_mask_noinit (heffect : effect i s = needOperand (maskInRange a) (needMatrix s k)) (ha : a ≤ 7#8)
    (hsize : s.size = 0#6) : exec i s = .next (s.reportError .noinit (encode i)) :=
  exec_noinit k (heffect.trans (if_pos (maskInRange_iff.2 ha))) hsize

end MaskOperand

/-- Settles O35: on a written matrix no check and no read fails, and the plane the rule builds is the masked one. -/
theorem mskapplyInvertsUnreservedCells : Obligations.MskapplyInvertsUnreservedCells := by
  refine ⟨mskapply_commandForm, fun a s hout => ?_, fun a s ha hsize => ?_, fun a s ha hinv hsize => ?_⟩
  · rw [← assemble_zero_right]
    exact exec_mask_illopnd rfl hout
  · rw [← assemble_zero_right]
    exact exec_mask_noinit rfl ha hsize
  · have heffect := runMskapply_ok.2 ⟨maskInRange_iff.2 ha, hsize, maskMatrix_eq hinv hsize a.toNat⟩
    exact ⟨_, exec_next.2 (.inl ⟨_, heffect, rfl⟩), rfl, isMasked_build hinv.shapeM⟩

/-- Settles O37: on a written matrix the penalty the rule computes is that of the grid of modules. -/
theorem penaltyCountsMaximalRuns : Obligations.PenaltyCountsMaximalRuns := by
  refine ⟨penalty_commandForm, fun s hsize => ?_, fun s hinv hsize => ?_⟩
  · exact exec_noinit
      (fun side => whenWritten (s.planeM.penalty side) fun p => .ok { s with result := BitVec.ofNat 32 p }) rfl hsize
  have hpenalty := penalty_eq_gridPoints (hinv.writtenM hsize) hinv.size.le_maxSize
  exact exec_next.2 (.inl ⟨_, runPenaltyCmd_ok.2 ⟨hsize, _, hpenalty, rfl⟩, rfl⟩)

/-- Settles O38: the score is that of the masked copy, and PENTAB changes in the one entry of the mask. -/
theorem mskscoreScoresTheMaskedCopy : Obligations.MskscoreScoresTheMaskedCopy := by
  refine ⟨mskscore_commandForm, fun a s hout => ?_, fun a s ha hsize => ?_, fun a s ha hinv hsize => ?_⟩
  · rw [← assemble_zero_right]
    exact exec_mask_illopnd rfl hout
  · rw [← assemble_zero_right]
    exact exec_mask_noinit rfl ha hsize
  · have hscore := scoreMask_eq hinv hsize a.toNat
    have heffect := runMskscore_ok.2 ⟨maskInRange_iff.2 ha, hsize, _, hscore, rfl⟩
    exact ⟨_, s.maskScore a.toNat, exec_next.2 (.inl ⟨_, heffect, rfl⟩), isScore_maskScore hinv _, rfl,
      penaltyOf_putScore_same s _ (Nat.lt_succ_of_le ha), fun m _ hne => penaltyOf_putScore_other s _ hne⟩

/-- Settles O39: the eight masks are scored on copies of one matrix, and the selection keeps the first least of the scores. -/
theorem mskselChoosesTheFirstMinimum : Obligations.MskselChoosesTheFirstMinimum := by
  refine ⟨msksel_commandForm, fun s hsize => ?_, fun s hinv hsize => ?_⟩
  · exact exec_noinit (fun _ => whenWritten s.selectMask .ok) rfl hsize
  have hscore : ∀ m < 8,
      (((List.range 8).map fun m => (s.maskedCopy m, s.maskScore m)).map Prod.snd).getD m 0 = s.maskScore m :=
    fun m hm => by simp [hm]
  refine ⟨_, s.maskScore, exec_next.2 (.inl ⟨_, runMsksel_ok.2 ⟨hsize, selectMask_eq hinv hsize⟩, rfl⟩),
    fun m _ => isScore_maskScore hinv m, rfl, fun m hm => ?_, ?_⟩
  · rw [← hscore m hm]
    exact penaltyOf_putSelection s _ hm
  · exact firstMinimum_congr (firstMinimum_maskid_putSelection s (by simp)) hscore

end Sys2Proof.Machine
end

section
/-! PROOFS of NOP: the command whose rule leaves the state as it is, so that its Engine step is its completion alone (R220, R232). -/

namespace Sys2Proof.Machine

open Sys2Proof.Claims

theorem nop_commandForm : CommandForm 0x00#8 false false (fun _ _ => .nop) := by
  refine commandForm_of_decode_maskN fun w hopc => ?_
  rw [decode, hopc]
  rfl

/-- Settles O40: NOP's rule answers the state it was given, in every state, and what is left is the completion. -/
theorem nopOnlyCompletes : Obligations.NopOnlyCompletes :=
  ⟨nop_commandForm, fun _ => exec_next.2 (.inl ⟨_, runNop_ok.2 rfl, rfl⟩)⟩

end Sys2Proof.Machine
end

section
/-! PROOFS of the order of the checks: the code a command's rule reports is that of the first check of R233 that fails, a rule that answers
a state keeps STATUS and ERRINFO, and the one fault a rule meets is ReadUnwritten (R231 to R233). -/

namespace Sys2Proof.Machine

open Sys2Proof.Claims

/-! ### A word that decodes is its command's encoding, and a word legal in form decodes (R93, R98) -/

theorem assemble_of_masked_maskN {w : Word} {opc : Byte} (h : w &&& maskN = assemble opc 0#8 0#8) :
    assemble opc 0#8 0#8 = w := by
  obtain ⟨hopc, ha, hb, hc⟩ := masked_maskN.1 h
  exact word_ext (by simp [hopc]) (by simp [ha]) (by simp [hb]) (by simp [hc])

theorem assemble_of_masked_maskA {w : Word} {opc : Byte} (h : w &&& maskA = assemble opc 0#8 0#8) :
    assemble opc (fieldA w) 0#8 = w := by
  obtain ⟨hopc, hb, hc⟩ := masked_maskA.1 h
  exact word_ext (by simp [hopc]) (by simp) (by simp [hb]) (by simp [hc])

theorem assemble_of_masked_maskAB {w : Word} {opc : Byte} (h : w &&& maskAB = assemble opc 0#8 0#8) :
    assemble opc (fieldA w) (fieldB w) = w := by
  obtain ⟨hopc, hc⟩ := masked_maskAB.1 h
  exact word_ext (by simp [hopc]) (by simp) (by simp) (by simp [hc])

/-- A word that decodes to a command is the word that encodes it, so the word a command reports is the pending one (R93, R98, R232). -/
theorem encode_of_decode {w : Word} {i : Instr} (h : decode w = .ok i) : encode i = w := by
  unfold decode at h
  split at h
  -- the last arm: OPC is unassigned
  case h_22 => cases h
  all_goals
    obtain ⟨hmatch, rfl⟩ := checkForm_ok.1 h
    simp only [encode, opcode]
  -- the formats CMD-N, CMD-A and CMD-AB
  case h_1 | h_5 | h_7 | h_11 | h_12 | h_13 | h_14 | h_16 | h_19 | h_20 => exact assemble_of_masked_maskN hmatch
  case h_6 | h_8 | h_10 | h_17 | h_18 | h_21 => exact assemble_of_masked_maskA hmatch
  case h_2 | h_3 | h_4 | h_9 | h_15 => exact assemble_of_masked_maskAB hmatch

/-- Every row's mask covers OPC (R100). -/
theorem fieldOpc_mask : ∀ row ∈ opcodeRows, fieldOpc row.1 = BitVec.allOnes 8 := by
  intro row hrow
  fin_cases hrow <;> rfl

/-- The opcode of a matching row selects the decoder's arm, whose check of form then passes. -/
theorem exists_decode_of_legalInForm {w : Word} (h : LegalInForm w) : ∃ i, decode w = .ok i := by
  obtain ⟨row, hrow, hmatch⟩ := h
  have hopc : fieldOpc w = fieldOpc row.2 := by
    rw [← hmatch, fieldOpc_and, fieldOpc_mask row hrow, BitVec.and_allOnes]
  fin_cases hrow
  all_goals
    rw [decode, hopc]
    exact ⟨_, if_pos hmatch⟩

theorem legalInForm_iff_exists_decode {w : Word} : LegalInForm w ↔ ∃ i, decode w = .ok i :=
  ⟨exists_decode_of_legalInForm, fun ⟨_, h⟩ => legalInForm_of_decode h⟩

/-! ### The code a rule reports -/

/-- The code of the error a command's rule reports (R231), none when it completes or meets a model fault. -/
def reportedCode : Result → Option (BitVec 4)
  | .error (.err c) => some c.code
  | .error (.fault _) => none
  | .ok _ => none

@[simp] theorem reportedCode_ok (u : State) : reportedCode (.ok u) = none := rfl

@[simp] theorem reportedCode_needOperand (inRange : Bool) (k : Result) :
    reportedCode (needOperand inRange k) = if inRange = false then some 4#4 else reportedCode k := by
  cases inRange <;> rfl

@[simp] theorem reportedCode_needMatrix (s : State) (k : Nat → Result) :
    reportedCode (needMatrix s k) = if s.size = 0#6 then some 5#4 else reportedCode (k s.size.toNat) := by
  unfold needMatrix
  split <;> rfl

@[simp] theorem reportedCode_needCapacity (p : OverflowPolicy) (len d : Nat) (k : Result) :
    reportedCode (needCapacity p len d k) =
      if 255 < len ∨ (d < len + 2 ∧ p = .fault) then some 2#4 else reportedCode k := by
  unfold needCapacity
  by_cases hlen : 255 < len
  · simp only [hlen, true_or, if_true]
    rfl
  · simp only [hlen, false_or, if_false]
    split <;> rfl

/-- A read of bytes or cells reports no error of its own: it goes on, or the model stops (R46). -/
@[simp] theorem reportedCode_whenWritten {α : Type} (x : Option α) (k : α → Result) :
    reportedCode (whenWritten x k) = x.bind fun v => reportedCode (k v) := by
  cases x <;> rfl

/-- GFDIV's one check is the divisor (R117). -/
@[simp] theorem reportedCode_runGfdiv (a b : Byte) (s : State) :
    reportedCode (runGfdiv a b s) = if b = 0#8 then some 1#4 else none := by
  unfold runGfdiv
  split_ifs with hb
  · rw [div_eq_none.2 hb]
    rfl
  · obtain ⟨q, hq⟩ := Option.ne_none_iff_exists'.1 (mt div_eq_none.1 hb)
    rw [hq]
    rfl

/-! ### The operands out of range (R92) -/

@[simp] theorem levelInRange_eq_false {a : Byte} : levelInRange a = false ↔ 3 < a.toNat := by simp [levelInRange]

@[simp] theorem maskInRange_eq_false {a : Byte} : maskInRange a = false ↔ 7 < a.toNat := by simp [maskInRange]

@[simp] theorem versionInRange_eq_false {v : Nat} : versionInRange v = false ↔ v < 1 ∨ 5 < v := by
  simp [versionInRange, imp_iff_not_or]

@[simp] theorem degreeInRange_eq_false {n : Byte} : degreeInRange n = false ↔ 32 < n.toNat := by simp [degreeInRange]

@[simp] theorem streamInRange_eq_false {d n : Byte} :
    streamInRange d n = false ↔ 32 < n.toNat ∨ 256 < d.toNat + n.toNat := by
  simp [streamInRange, imp_iff_not_or]

@[simp] theorem cwlenInRange_eq_false {n : Nat} : cwlenInRange n = false ↔ 256 < n := by simp [cwlenInRange]

/-! ### The capacity of DENC and ENCODE (R130, R131) -/

theorem capacityOf_eq_dOf {v : Nat} (hv : 1 ≤ v ∧ v ≤ 5) : (capacityOf v).1 = dOf v := by
  obtain ⟨hlow, hhigh⟩ := hv
  interval_cases v <;> rfl

theorem versionFor_eq_versionOf (L : Nat) : versionFor L = versionOf L := by
  simp only [versionFor, versionOf, breakpoints, List.filter_cons, List.filter_nil, decide_eq_true_eq]
  split_ifs <;> simp only [List.length_cons, List.length_nil] <;> omega

theorem capacityOf_versionFor (L : Nat) : (capacityOf (versionFor L)).1 = dOf (versionOf L) := by
  obtain ⟨hlow, hhigh, -⟩ := isVersionFor_versionFor L
  rw [capacityOf_eq_dOf ⟨hlow, hhigh⟩, versionFor_eq_versionOf]

/-- DENC checks VER before the capacity it names. -/
@[simp] theorem reportedCode_runDenc (s : State) :
    reportedCode (runDenc s) =
      if s.ver.toNat < 1 ∨ 5 < s.ver.toNat then some 4#4
      else if 255 < s.len.toNat ∨ (dOf s.ver.toNat < s.len.toNat + 2 ∧ s.cfg.overflow = .fault) then some 2#4
      else none := by
  by_cases hver : s.ver.toNat < 1 ∨ 5 < s.ver.toNat
  · rw [runDenc, reportedCode_needOperand, if_pos (versionInRange_eq_false.2 hver), if_pos hver]
  · have hcapacity := capacityOf_eq_dOf (v := s.ver.toNat) (by omega)
    simp [runDenc, hcapacity]

@[simp] theorem reportedCode_runEncode (a : Byte) (s : State) :
    reportedCode (runEncode a s) =
      if 3 < a.toNat then some 4#4
      else if 255 < s.len.toNat ∨ (dOf (versionOf s.len.toNat) < s.len.toNat + 2 ∧ s.cfg.overflow = .fault) then some 2#4
      else none := by
  simp [runEncode, capacityOf_versionFor]

/-! ### The first failing check of a word that decodes (R233) -/

theorem any_opcodeRows_iff {w : Word} : (opcodeRows.any fun row => w &&& row.1 == row.2) = true ↔ LegalInForm w := by
  simp [LegalInForm]

/-- A word that is not legal in form fails the first check. -/
theorem firstError_of_not_legalInForm {w : Word} (s : State) (h : ¬LegalInForm w) : firstError w s = some 3#4 := by
  rw [← any_opcodeRows_iff, Bool.not_eq_true] at h
  simp only [firstError, h, Bool.not_false, if_true]

/-- The checks of R233 that follow the check of form, by the command's opcode and its operands. -/
theorem firstError_of_decode {w : Word} {i : Instr} (s : State) (h : decode w = .ok i) :
    firstError w s =
      let a := (i.operands.getD 0 0#8).toNat
      let b := (i.operands.getD 1 0#8).toNat
      if operandBad (opcode i).toNat a b s then some 4#4
      else if needsMatrix (opcode i).toNat && s.size == 0#6 then some 5#4
      else if overlong (opcode i).toNat s then some 2#4
      else if (opcode i).toNat == 0x02 && b == 0 then some 1#4
      else none := by
  have hform := any_opcodeRows_iff.2 (legalInForm_of_decode h)
  obtain rfl := encode_of_decode h
  have hopc : (encode i).extractLsb' 0 8 = opcode i := fieldOpc_assemble ..
  have ha : (encode i).extractLsb' 8 8 = i.operands.getD 0 0#8 := fieldA_assemble ..
  have hb : (encode i).extractLsb' 16 8 = i.operands.getD 1 0#8 := fieldB_assemble ..
  simp only [firstError, hform, hopc, ha, hb, Bool.not_true, Bool.false_eq_true, if_false]

/-- The checks that the opcode selects in the spec's order are those its command's rule makes, in that order (R233). -/
theorem firstError_eq_reportedCode {w : Word} {i : Instr} (s : State) (h : decode w = .ok i) :
    firstError w s = reportedCode (effect i s) := by
  rw [firstError_of_decode s h]
  cases i
  -- leaves the checks of each opcode; DENC and ENCODE then read as their rules do
  all_goals simp [opcode, Instr.operands, operandBad, needsMatrix, overlong, effect]
  -- no check but that of form
  case nop | gfmul | verfor => rfl
  -- the operands only
  case fmtbits | capof | rsgen | rsenc | mxinit => simp [runFmtbits, runCapof, runRsgen, runRsenc, runMxinit, imp_iff_not_or]
  -- the matrix only
  case mxfind | mxsep | mxtime | mxdark | penalty | msksel =>
    simp [runMxfind, runMxsep, runMxtime, runMxdark, runPenaltyCmd, runMsksel]
  -- the operands, then the matrix
  case mxfmt | mxdata | mskapply | mskscore => simp [runMxfmt, runMxdata, runMskapply, runMskscore, imp_iff_not_or]
  -- the divisor
  case gfdiv => simp [BitVec.toNat_eq]

/-! ### What else a rule answers: STATUS and ERRINFO as they were, or ReadUnwritten (R232, R233) -/

/-- `u` has the flags and the error report of `s`. -/
def State.SameReport (s u : State) : Prop := u.status = s.status ∧ u.errinfo = s.errinfo

/-- A rule's answer in `s` leaves the report to the completion, and a model fault it meets is ReadUnwritten. -/
def KeepsReport (s : State) : Result → Prop
  | .ok u => s.SameReport u
  | .error (.err _) => True
  | .error (.fault f) => f = .readUnwritten

theorem keepsReport_needOperand {s : State} {inRange : Bool} {k : Result} (hk : KeepsReport s k) :
    KeepsReport s (needOperand inRange k) := by
  cases inRange
  · trivial
  · exact hk

theorem keepsReport_needMatrix {s : State} {k : Nat → Result} (hk : ∀ side, KeepsReport s (k side)) :
    KeepsReport s (needMatrix s k) := by
  unfold needMatrix
  split
  · trivial
  · exact hk _

theorem keepsReport_needCapacity {s : State} {p : OverflowPolicy} {len d : Nat} {k : Result} (hk : KeepsReport s k) :
    KeepsReport s (needCapacity p len d k) := by
  unfold needCapacity
  split
  · trivial
  · split
    · trivial
    · exact hk

theorem keepsReport_whenWritten {α : Type} {s : State} {x : Option α} {k : α → Result}
    (hk : ∀ v, x = some v → KeepsReport s (k v)) : KeepsReport s (whenWritten x k) := by
  cases x with
  | none => rfl
  | some v => exact hk v rfl

theorem sameReport_of_placeData {s u : State} {stream : List Byte} (h : s.placeData stream = some u) : s.SameReport u := by
  obtain ⟨res, -, rfl⟩ := Option.map_eq_some_iff.1 h
  exact ⟨rfl, rfl⟩

theorem sameReport_of_maskMatrix {s u : State} {m : Nat} (h : s.maskMatrix m = some u) : s.SameReport u := by
  obtain ⟨p, -, rfl⟩ := Option.map_eq_some_iff.1 h
  exact ⟨rfl, rfl⟩

theorem sameReport_of_selectMask {s u : State} (h : s.selectMask = some u) : s.SameReport u := by
  obtain ⟨res, -, rfl⟩ := Option.map_eq_some_iff.1 h
  exact ⟨rfl, rfl⟩

theorem State.SameReport.trans {s t u : State} (hst : s.SameReport t) (htu : t.SameReport u) : s.SameReport u :=
  ⟨htu.1.trans hst.1, htu.2.trans hst.2⟩

theorem sameReport_buildSymbol (s : State) (level v : Nat) (p : List Byte) : s.SameReport (s.buildSymbol level v p) := by
  simp [State.SameReport, State.buildSymbol]

theorem sameReport_of_finishSymbol {s u : State} {level : Nat} {stream : List Byte}
    (h : s.finishSymbol level stream = some u) : s.SameReport u := by
  obtain ⟨s1, hdata, h⟩ := Option.bind_eq_some_iff.1 h
  obtain ⟨s2, hselect, h⟩ := Option.bind_eq_some_iff.1 h
  obtain ⟨s3, hmask, rfl⟩ := Option.map_eq_some_iff.1 h
  have hs3 : s.SameReport s3 :=
    ((sameReport_of_placeData hdata).trans (sameReport_of_selectMask hselect)).trans (sameReport_of_maskMatrix hmask)
  exact hs3.trans ⟨rfl, rfl⟩

theorem keepsReport_runGfdiv (a b : Byte) (s : State) : KeepsReport s (runGfdiv a b s) := by
  unfold runGfdiv
  split
  · exact ⟨rfl, rfl⟩
  · trivial

theorem keepsReport_runEncode (a : Byte) (s : State) : KeepsReport s (runEncode a s) :=
  keepsReport_needOperand <| keepsReport_needCapacity <| keepsReport_whenWritten fun p _ =>
    keepsReport_whenWritten fun _ h => (sameReport_buildSymbol s a.toNat _ p).trans (sameReport_of_finishSymbol h)

/-- No rule sets a flag or ERRINFO, and reads are the only source of model faults. -/
theorem keepsReport_effect (i : Instr) (s : State) : KeepsReport s (effect i s) := by
  cases i
  case nop | gfmul | verfor => exact ⟨rfl, rfl⟩
  case gfdiv a b => exact keepsReport_runGfdiv a b s
  case fmtbits | capof | rsgen | mxinit => exact keepsReport_needOperand ⟨rfl, rfl⟩
  case denc =>
    exact keepsReport_needOperand <| keepsReport_needCapacity <| keepsReport_whenWritten fun _ _ => ⟨rfl, rfl⟩
  case rsenc => exact keepsReport_needOperand <| keepsReport_whenWritten fun _ _ => ⟨rfl, rfl⟩
  case mxfind | mxsep | mxtime | mxdark =>
    simp only [effect, runMxfind, runMxsep, runMxtime, runMxdark]
    exact keepsReport_needMatrix fun _ => ⟨rfl, rfl⟩
  case mxfmt => exact keepsReport_needOperand <| keepsReport_needMatrix fun _ => ⟨rfl, rfl⟩
  case mxdata =>
    exact keepsReport_needOperand <| keepsReport_needMatrix fun _ => keepsReport_whenWritten fun _ _ =>
      keepsReport_whenWritten fun _ h => sameReport_of_placeData h
  case mskapply =>
    exact keepsReport_needOperand <| keepsReport_needMatrix fun _ => keepsReport_whenWritten fun _ h =>
      sameReport_of_maskMatrix h
  case mskscore =>
    exact keepsReport_needOperand <| keepsReport_needMatrix fun _ => keepsReport_whenWritten fun _ _ => ⟨rfl, rfl⟩
  case penalty =>
    simp only [effect, runPenaltyCmd]
    exact keepsReport_needMatrix fun _ => keepsReport_whenWritten fun _ _ => ⟨rfl, rfl⟩
  case msksel =>
    simp only [effect, runMsksel]
    exact keepsReport_needMatrix fun _ => keepsReport_whenWritten fun _ h => sameReport_of_selectMask h
  case encode a => exact keepsReport_runEncode a s

/-! ### The Engine step -/

/-- The completion of a rule's answer: a reported code is the only thing that changes with the command's own word, and no code means a
completion or a stop. -/
theorem finish_of_keepsReport {i : Instr} {s : State} {r : Result} (h : KeepsReport s r) :
    (∀ code, reportedCode r = some code → finish i s r = .next (reported s code (encode i))) ∧
      (reportedCode r = none →
        (∃ t, finish i s r = .next t ∧ t.pend = none ∧ t.status = { s.status with done := true } ∧ t.errinfo = s.errinfo) ∨
          finish i s r = .fault .readUnwritten) := by
  rcases r with (c | f) | u
  · exact ⟨fun code hcode => Option.some.inj hcode ▸ rfl, fun hnone => nomatch hnone⟩
  · obtain rfl : f = .readUnwritten := h
    exact ⟨(fun _ hcode => nomatch hcode), fun _ => .inr rfl⟩
  · obtain ⟨hstatus, herrinfo⟩ : s.SameReport u := h
    exact ⟨(fun _ hcode => nomatch hcode),
      fun _ => .inl ⟨u.complete, rfl, rfl, congrArg Status.setDone hstatus, herrinfo⟩⟩

/-- Settles O8: a word that does not decode fails the check of form; for any other the rule of its command reports the code of the first
failing check, and with no code it keeps the report or meets an unwritten input. -/
theorem firstFailingCheckDecidesTheOutcome : Obligations.FirstFailingCheckDecidesTheOutcome := by
  intro w s
  cases hdecode : decode w with
  | error e =>
    have hillegal : ¬LegalInForm w := by simp [legalInForm_iff_exists_decode, hdecode]
    rw [firstError_of_not_legalInForm s hillegal, engineStep_of_decode_error s hdecode]
    exact ⟨fun code hcode => Option.some.inj hcode ▸ rfl, fun hnone => nomatch hnone⟩
  | ok i =>
    have hstep : engineStep w s = finish i s (effect i s) := by
      rw [engineStep, hdecode]
      exact exec_eq_finish i s
    rw [hstep, firstError_eq_reportedCode s hdecode, ← encode_of_decode hdecode]
    exact finish_of_keepsReport (keepsReport_effect i s)

end Sys2Proof.Machine
end

section
/-! PROOFS of the round trip: a command's word has the command's opcode and operands in its fields, so it decodes to the command, and a
word that decodes is the word of its command (R93, R96, R98). -/

namespace Sys2Proof.Machine

open Sys2Proof.Claims Sys2Proof.Laws

theorem fieldOpc_encode (i : Instr) : fieldOpc (encode i) = opcode i := fieldOpc_assemble ..

theorem fieldA_encode (i : Instr) : fieldA (encode i) = i.operands.getD 0 0#8 := fieldA_assemble ..

theorem fieldB_encode (i : Instr) : fieldB (encode i) = i.operands.getD 1 0#8 := fieldB_assemble ..

/-- The opcode selects the command's arm of the decoder, the word passes the arm's check of form, and the operands come from the fields
that hold them. -/
theorem decode_encode (i : Instr) : decode (encode i) = .ok i := by
  rw [decode, fieldOpc_encode, fieldA_encode, fieldB_encode]
  cases i
  all_goals
    refine checkForm_ok.2 ⟨?_, rfl⟩
    simp only [encode, opcode]
  -- the formats CMD-N, CMD-A and CMD-AB
  case nop | verfor | denc | mxfind | mxsep | mxtime | mxdark | mxdata | penalty | msksel => exact TableRow.formN _
  case capof | rsgen | mxinit | mskapply | mskscore | encode => exact TableRow.formA _ _
  case gfmul | gfdiv | fmtbits | rsenc | mxfmt => exact TableRow.formAB _ _ _

/-- Settles O1: the encoder puts opcode and operands where the decoder looks for them. -/
theorem decodeOfEncodeIsTheCommand : Obligations.DecodeOfEncodeIsTheCommand := decode_encode

/-- Settles O2: the form a word must have to decode leaves no bit free but its operands, which the command keeps. -/
theorem decodedWordIsTheEncoding : Obligations.DecodedWordIsTheEncoding := fun _ _ => encode_of_decode

/-- Settles O3: the decoder's arms are the rows of the opcode table. -/
theorem decodesExactlyWhenLegalInForm : Obligations.DecodesExactlyWhenLegalInForm := fun _ =>
  legalInForm_iff_exists_decode.symm

/-- Settles O5: eight of the words are encodings; of the other two one has an unassigned opcode, and one a field C that is not 0. -/
theorem writtenOutWordsDecode : Obligations.WrittenOutWordsDecode :=
  ⟨decode_encode (.gfmul 0x53#8 0xCA#8), decode_encode (.fmtbits 1#8 4#8), decode_encode (.capof 4#8), decode_encode .denc,
    decode_encode (.rsenc 19#8 7#8), decode_encode (.mxfmt 1#8 4#8), decode_encode (.mskscore 5#8),
    decode_encode (.encode 1#8), rfl, rfl⟩

end Sys2Proof.Machine
end

section
/-! PROOFS of the zigzag: the loop of R184 visits the column pairs in the closed form's order, and so every cell outside column 6 once. -/

namespace Sys2Proof.Machine

open Sys2Proof.Claims

/-! ### The loop in closed form -/

/-- The cells of column pair p, counted from the right: upward for an even p (R184). -/
def zigzagPair (side p : Nat) : List (Nat × Nat) := pairCells side (pairColumn side p) (decide (p % 2 = 0))

theorem cellOrder_eq_flatMap_zigzagPair (side : Nat) :
    cellOrder side = (List.range ((side - 1) / 2)).flatMap (zigzagPair side) :=
  congrArg (List.flatMap · _) (funext fun p => by simp [zigzagPair, pairCells])

/-- One round of the loop at column `right`, which is not 0. -/
theorem zigzagFrom_succ (side fuel : Nat) {right column : Nat} (upward : Bool) (hright : right ≠ 0)
    (hcolumn : column = if right = 6 then 5 else right) :
    zigzagFrom side (fuel + 1) right upward = pairCells side column upward ++ zigzagFrom side fuel (column - 2) (!upward) := by
  rw [zigzagFrom, if_neg hright, hcolumn]

theorem zigzagFrom_zero (side fuel : Nat) (upward : Bool) : zigzagFrom side fuel 0 upward = [] := by
  cases fuel <;> rfl

theorem decide_succ_even (p : Nat) : decide ((p + 1) % 2 = 0) = !decide (p % 2 = 0) := by
  rw [← decide_not, decide_eq_decide]
  omega

/-- From column 6, which is skipped, the loop visits the last three pairs. -/
theorem zigzagFrom_six {side fuel p : Nat} (hp : side = 2 * p + 7) :
    zigzagFrom side (fuel + 4) 6 (decide (p % 2 = 0)) = (List.range' p 3).flatMap (zigzagPair side) := by
  have hfive : pairColumn side p = 5 := by unfold pairColumn; split <;> omega
  have hthree : pairColumn side (p + 1) = 3 := by unfold pairColumn; split <;> omega
  have hone : pairColumn side (p + 2) = 1 := by unfold pairColumn; split <;> omega
  rw [zigzagFrom_succ (column := 5) _ _ _ (by decide) rfl, zigzagFrom_succ (column := 3) _ _ _ (by decide) rfl,
    zigzagFrom_succ (column := 1) _ _ _ (by decide) rfl, zigzagFrom_zero]
  simp [List.range', zigzagPair, hfive, hthree, hone, decide_succ_even]

/-- With k pairs to go before column 6 the loop visits these and the last three. -/
theorem zigzagFrom_even {side fuel k p : Nat} (hp : side = 2 * p + 2 * k + 7) :
    zigzagFrom side (fuel + k + 4) (2 * k + 6) (decide (p % 2 = 0)) = (List.range' p (k + 3)).flatMap (zigzagPair side) := by
  induction k generalizing p with
  | zero => exact zigzagFrom_six hp
  | succ k ih =>
    have hcolumn : pairColumn side p = 2 * (k + 1) + 6 := by unfold pairColumn; split <;> omega
    rw [show fuel + (k + 1) + 4 = fuel + k + 4 + 1 by omega,
      zigzagFrom_succ (column := 2 * (k + 1) + 6) _ _ _ (by omega) (if_neg (by omega)).symm,
      show 2 * (k + 1) + 6 - 2 = 2 * k + 6 by omega, ← decide_succ_even, ih (by omega),
      show k + 1 + 3 = k + 3 + 1 by omega, List.range'_succ (s := p), List.flatMap_cons, zigzagPair, hcolumn]

/-- An odd side of at least 7 cells: the loop's order is the closed form's (R184). -/
theorem zigzag_eq_cellOrder {side : Nat} (hodd : side % 2 = 1) (hside : 7 ≤ side) : zigzag side = cellOrder side := by
  obtain ⟨k, rfl⟩ : ∃ k, side = 2 * 0 + 2 * k + 7 := ⟨(side - 7) / 2, by omega⟩
  have hloop := zigzagFrom_even (fuel := k + 3) (k := k) (p := 0) rfl
  rw [cellOrder_eq_flatMap_zigzagPair, List.range_eq_range', show (2 * 0 + 2 * k + 7 - 1) / 2 = k + 3 by omega, ← hloop,
    zigzag]
  congr 1 <;> omega

/-! ### The cells of the closed form -/

theorem mem_pairCells_iff {side right r c : Nat} {upward : Bool} :
    (r, c) ∈ pairCells side right upward ↔ r < side ∧ (c = right ∨ c = right - 1) := by
  simp only [pairCells, List.mem_flatMap, List.mem_range, List.mem_cons, Prod.mk.injEq, List.not_mem_nil, or_false]
  constructor
  · rintro ⟨k, hk, ⟨rfl, rfl⟩ | ⟨rfl, rfl⟩⟩
    · exact ⟨by split <;> omega, .inl rfl⟩
    · exact ⟨by split <;> omega, .inr rfl⟩
  · rintro ⟨hr, hc⟩
    refine ⟨if upward then side - 1 - r else r, by split <;> omega, ?_⟩
    have hrow : r = if upward then side - 1 - (if upward then side - 1 - r else r) else if upward then side - 1 - r else r := by
      split <;> omega
    exact hc.imp (⟨hrow, ·⟩) (⟨hrow, ·⟩)

theorem nodup_pairCells {side right : Nat} (upward : Bool) (hright : right ≠ 0) : (pairCells side right upward).Nodup := by
  refine List.nodup_flatMap.2 ⟨fun k _ => ?_, List.nodup_range.imp_of_mem fun {k l} hk hl hne => ?_⟩
  · have : right ≠ right - 1 := by omega
    simp [this]
  · rw [List.mem_range] at hk hl
    have hrow : (if upward then side - 1 - k else k) ≠ if upward then side - 1 - l else l := by split <;> omega
    intro cell hcell hcell'
    simp only [List.mem_cons, List.not_mem_nil, or_false] at hcell hcell'
    rcases hcell with rfl | rfl <;> simp [hrow] at hcell'

section OddSide

variable {side : Nat} (hodd : side % 2 = 1) (hside : 7 ≤ side)

include hodd hside

/-- The pairs cover the columns other than 6. -/
theorem mem_cellOrder_iff {r c : Nat} : (r, c) ∈ cellOrder side ↔ r < side ∧ c < side ∧ c ≠ 6 := by
  simp only [cellOrder_eq_flatMap_zigzagPair, List.mem_flatMap, List.mem_range, zigzagPair, mem_pairCells_iff]
  constructor
  · rintro ⟨p, hp, hr, hc⟩
    unfold pairColumn at hc
    split at hc <;> omega
  · rintro ⟨hr, hc, h6⟩
    refine ⟨(if c < 6 then side - 2 - c else side - 1 - c) / 2, by split <;> omega, hr, ?_⟩
    unfold pairColumn
    split <;> split <;> omega

/-- Two pairs share no column. -/
theorem nodup_cellOrder : (cellOrder side).Nodup := by
  rw [cellOrder_eq_flatMap_zigzagPair]
  refine List.nodup_flatMap.2 ⟨fun p hp => nodup_pairCells _ ?_, List.pairwise_lt_range.imp_of_mem fun {p q} hp hq hlt => ?_⟩
  · rw [List.mem_range] at hp
    unfold pairColumn
    split <;> omega
  · rw [List.mem_range] at hp hq
    rintro ⟨r, c⟩ hcell hcell'
    obtain ⟨-, hc⟩ := mem_pairCells_iff.1 hcell
    obtain ⟨-, hc'⟩ := mem_pairCells_iff.1 hcell'
    unfold pairColumn at hc hc'
    split at hc <;> split at hc' <;> omega

end OddSide

/-- The first cell of the loop is the bottom right one. -/
theorem head?_zigzag {side : Nat} (hside : 8 ≤ side) : (zigzag side).head? = some (side - 1, side - 1) := by
  obtain ⟨n, rfl⟩ : ∃ n, side = n + 8 := ⟨side - 8, by omega⟩
  rw [zigzag, zigzagFrom_succ (fuel := n + 7) (column := n + 8 - 1) _ _ (by omega) (if_neg (by omega)).symm]
  simp [pairCells, List.range_succ_eq_map]

theorem LegalSize.odd_side {z : BitVec 6} (h : LegalSize z) (h0 : z ≠ 0#6) : z.toNat % 2 = 1 ∧ 8 ≤ z.toNat := by
  have := h.side h0
  omega

/-- Settles O31: the loop's order is the closed form, whose pairs have no column in common and leave out column 6 alone. -/
theorem zigzagVisitsEveryCellOnce : Obligations.ZigzagVisitsEveryCellOnce := by
  intro z hlegal hz
  obtain ⟨hodd, hside⟩ := hlegal.odd_side hz
  have h7 : 7 ≤ z.toNat := by omega
  refine ⟨?_, head?_zigzag hside, fun r c => ?_⟩
  · rw [zigzag_eq_cellOrder hodd h7]
    exact nodup_cellOrder hodd h7
  · rw [zigzag_eq_cellOrder hodd h7]
    exact mem_cellOrder_iff hodd h7

end Sys2Proof.Machine
end

section
/-! PROOFS of the invariant: each operation of a command's rule keeps it, so every rule does; a completion, a reported error, a Host event
and a reset keep it, so every step does (R25, R33, R70, R171, R232, R234, R261). -/

namespace Sys2Proof.Machine

open Sys2Proof.Claims

/-! ### Bytes -/

section Bytes

variable {s : State}

theorem State.Inv.writeBytes (h : s.Inv) {a : Nat} {bs : List Byte} (hin : ∀ x, a ≤ x → x < a + bs.length → InBuffers x) :
    State.Inv { s with mem := s.mem.writeBytes a bs } :=
  { h with
    memCanonical := Memory.writeBytes_wf h.memCanonical a bs
    memInBuffers := fun p hp => (Memory.mem_writeBytes hp).elim (h.memInBuffers p) fun ⟨hlow, hhigh⟩ => hin p.1 hlow hhigh }

theorem inBuffers_payload {x : Nat} (hlow : 0x100 ≤ x) (hhigh : x < 0x200) : InBuffers x := .inl ⟨hlow, hhigh⟩

theorem inBuffers_cw {x : Nat} (hlow : 0x200 ≤ x) (hhigh : x < 0x300) : InBuffers x := .inr (.inl ⟨hlow, hhigh⟩)

theorem inBuffers_gen {x : Nat} (hlow : 0x300 ≤ x) (hhigh : x < 0x321) : InBuffers x := .inr (.inr ⟨hlow, hhigh⟩)

/-- No entry of the Version Capacity Table fills CW (R130). -/
theorem capacityOf_le (v : Nat) : (capacityOf v).1 ≤ 108 ∧ (capacityOf v).2 ≤ 26 := by
  unfold capacityOf
  split <;> decide

theorem State.Inv.putData (h : s.Inv) {d : Nat} (hd : d ≤ 256) (p : List Byte) : (s.putData d p).Inv := by
  have hbytes : State.Inv { s with mem := s.mem.writeBytes cwBase (dataCodewords d p) } := by
    refine h.writeBytes fun x hlow hhigh => inBuffers_cw hlow ?_
    rw [dataCodewords_length, cwBase] at hhigh
    omega
  exact { hbytes with }

theorem State.Inv.putGen (h : s.Inv) {n : Nat} (hn : n ≤ 32) : (s.putGen n).Inv := by
  refine h.writeBytes fun x hlow hhigh => inBuffers_gen hlow ?_
  rw [buildGen_length, genBase] at hhigh
  omega

/-- The error-correction codewords of a generator of degree n are n bytes (R154). -/
theorem remainder_buildGen_length (t : GfRom) (data : List Byte) (n : Nat) : (t.remainder data (t.buildGen n)).length = n := by
  rw [remainder_length, buildGen_length, Nat.add_sub_cancel]

theorem State.Inv.putEc (h : s.Inv) {d n : Nat} (hn : n ≤ 32) (hdn : d + n ≤ 256) (data : List Byte) :
    (s.putEc d n data).Inv := by
  have hbytes := (h.putGen hn).writeBytes (a := cwBase + d) (bs := s.rom.remainder data (s.rom.buildGen n)) fun x hlow hhigh => by
    rw [remainder_buildGen_length, cwBase] at hhigh
    rw [cwBase] at hlow
    exact inBuffers_cw (by omega) (by omega)
  exact { hbytes with }

end Bytes

/-! ### Cells -/

section Cells

variable {s : State}

/-- Writes of cells inside the planes keep the invariant. -/
theorem State.Inv.setCells (h : s.Inv) {ms rs : List CellWrite} (hm : InPlane ms) (hr : InPlane rs) :
    State.Inv { s with planeM := s.planeM.setAll ms, planeR := s.planeR.setAll rs } :=
  { h with
    shapeM := Plane.setAll_wf h.shapeM hm
    shapeR := Plane.setAll_wf h.shapeR hr
    writtenM := fun hsize => Plane.setAll_allWritten (h.writtenM hsize) ms
    writtenR := fun hsize => Plane.setAll_allWritten (h.writtenR hsize) rs }

/-- A plane M of the block whose cells are written may take the place of M. -/
theorem State.Inv.setPlaneM (h : s.Inv) {p : Plane} (hwf : p.wf) (hwritten : s.size ≠ 0#6 → p.AllWritten) :
    State.Inv { s with planeM := p } :=
  { h with shapeM := hwf, writtenM := hwritten }

/-- The side of a version is a legal SIZE (R33, R132). -/
theorem legalSize_sideOf {v : Nat} (hv : 1 ≤ v ∧ v ≤ 5) :
    LegalSize (BitVec.ofNat 6 (sideOf v)) ∧ BitVec.ofNat 6 (sideOf v) ≠ 0#6 := by
  obtain ⟨hlow, hhigh⟩ := hv
  unfold LegalSize
  interval_cases v <;> decide

theorem State.Inv.initMatrix (h : s.Inv) {v : Nat} (hv : 1 ≤ v ∧ v ≤ 5) : (s.initMatrix v).Inv :=
  { h with
    shapeM := Plane.fill_wf false
    shapeR := Plane.fill_wf false
    size := (legalSize_sideOf hv).1
    writtenM := fun _ => Plane.fill_allWritten false
    writtenR := fun _ => Plane.fill_allWritten false }

theorem State.Inv.placeFinders (h : s.Inv) : s.placeFinders.Inv :=
  h.setCells (finderWrites_inPlane h.size.le_maxSize) (allBoxCells_inPlane h.size.le_maxSize true)

theorem State.Inv.placeSeparators (h : s.Inv) : s.placeSeparators.Inv :=
  h.setCells (separatorCells_inPlane h.size.le_maxSize false) (separatorCells_inPlane h.size.le_maxSize true)

theorem State.Inv.placeTiming (h : s.Inv) : s.placeTiming.Inv :=
  h.setCells (timingWrites_inPlane h.size.le_maxSize) (reserveAll_inPlane (timingWrites_inPlane h.size.le_maxSize))

theorem State.Inv.placeDark (h : s.Inv) : s.placeDark.Inv := by
  have hin : InPlane [⟨s.size.toNat - 8, 8, true⟩] := by
    have := h.size.le_maxSize
    intro w hw
    obtain rfl := List.mem_singleton.1 hw
    simp only [maxSize] at this ⊢
    omega
  exact h.setCells hin hin

theorem State.Inv.placeFormat (h : s.Inv) (hsize : s.size ≠ 0#6) (level mask : Nat) : (s.placeFormat level mask).Inv := by
  have h8 : 8 < s.size.toNat := by have := h.le_side hsize; omega
  have hin := fmtWrites_inPlane s.cfg.bitOrder (fmtWord level mask) h.size.le_maxSize h8
  exact { h.setCells hin (reserveAll_inPlane hin) with }

/-! ### Data placement and masks -/

theorem placeBits_allWritten {reserved : Plane} {cells : List (Nat × Nat)} {bits : List Bool} {k n : Nat} {m m' : Plane}
    (h : placeBits reserved cells bits k m = some (m', n)) (hm : m.AllWritten) : m'.AllWritten := by
  induction cells generalizing bits k m with
  | nil =>
    simp only [placeBits, Option.some.injEq, Prod.mk.injEq] at h
    exact h.1 ▸ hm
  | cons cell cells ih =>
    cases hq : reserved.get cell.1 cell.2 with
    | none => simp [placeBits, hq] at h
    | some q =>
      cases q <;> cases bits <;> simp only [placeBits, hq] at h
      case true.nil | true.cons => exact ih h hm
      case false.nil | false.cons => exact ih h (Plane.set_allWritten hm _ _ _)

/-- A cell of the zigzag lies in the current matrix (R184). -/
theorem mem_zigzag_lt {z : BitVec 6} (h : LegalSize z) {cell : Nat × Nat} (hcell : cell ∈ zigzag z.toNat) :
    cell.1 < z.toNat ∧ cell.2 < z.toNat := by
  by_cases h0 : z = 0#6
  · subst h0
    simp [zigzag, zigzagFrom] at hcell
  · obtain ⟨hodd, hside⟩ := h.odd_side h0
    rw [zigzag_eq_cellOrder hodd (by omega)] at hcell
    obtain ⟨hr, hc, -⟩ := (mem_cellOrder_iff hodd (by omega)).1 hcell
    exact ⟨hr, hc⟩

theorem State.Inv.placeData (h : s.Inv) {stream : List Byte} {u : State} (hu : s.placeData stream = some u) : u.Inv := by
  obtain ⟨⟨m, k⟩, hplace, rfl⟩ := Option.map_eq_some_iff.1 hu
  have hin : ∀ cell ∈ zigzag s.size.toNat, cell.1 < maxSize ∧ cell.2 < maxSize := fun cell hcell =>
    have hlt := mem_zigzag_lt h.size hcell
    ⟨hlt.1.trans_le h.size.le_maxSize, hlt.2.trans_le h.size.le_maxSize⟩
  exact { h.setPlaneM (placeBits_wf hplace h.shapeM hin) fun hsize => placeBits_allWritten hplace (h.writtenM hsize) with }

theorem State.Inv.maskMatrix (h : s.Inv) {m : Nat} {u : State} (hu : s.maskMatrix m = some u) : u.Inv := by
  obtain ⟨p, hmask, rfl⟩ := Option.map_eq_some_iff.1 hu
  exact h.setPlaneM (applyMask_wf hmask) fun hsize => applyMask_allWritten hmask (h.writtenM hsize)

/-- A score is that of a masked plane, which is what S then holds (R205). -/
theorem scoreMask_eq_some {m : Nat} {res : Plane × Nat} :
    s.scoreMask m = some res ↔
      applyMask s.planeR s.planeM s.size.toNat m = some res.1 ∧ res.1.penalty s.size.toNat = some res.2 := by
  obtain ⟨x, n⟩ := res
  unfold State.scoreMask
  cases applyMask s.planeR s.planeM s.size.toNat m with
  | none => simp
  | some y =>
    simp only [Option.map_eq_some_iff, Prod.mk.injEq, Option.some.injEq]
    constructor
    · rintro ⟨k, hk, rfl, rfl⟩
      exact ⟨rfl, hk⟩
    · rintro ⟨rfl, hk⟩
      exact ⟨n, hk, rfl, rfl⟩

theorem State.Inv.putScore (h : s.Inv) {m k : Nat} {res : Plane × Nat} (hres : s.scoreMask k = some res) :
    (s.putScore m res).Inv :=
  { h with shapeS := applyMask_wf (scoreMask_eq_some.1 hres).1 }

/-- Every one of MSKSEL's eight results is the score of its mask (R207). -/
theorem scoreAll_eq_some {results : List (Plane × Nat)} :
    s.scoreAll = some results ↔ (List.range 8).map s.scoreMask = results.map some := allPresent_eq_some

theorem State.Inv.selectMask (h : s.Inv) {u : State} (hu : s.selectMask = some u) : u.Inv := by
  obtain ⟨results, hall, rfl⟩ := Option.map_eq_some_iff.1 hu
  have hwf : ∀ res ∈ results, res.1.wf := by
    intro res hres
    have hmem : some res ∈ (List.range 8).map s.scoreMask := scoreAll_eq_some.1 hall ▸ List.mem_map_of_mem hres
    obtain ⟨m, -, hm⟩ := List.mem_map.1 hmem
    exact applyMask_wf (scoreMask_eq_some.1 hm).1
  have hlast : ((results.map Prod.fst).getLastD s.planeS).wf := by
    rcases results.map Prod.fst |>.eq_nil_or_concat with hnil | ⟨ps, p, hconcat⟩
    · rw [hnil]
      exact h.shapeS
    · have hp : p ∈ results.map Prod.fst := by simp [hconcat]
      obtain ⟨res, hres, rfl⟩ := List.mem_map.1 hp
      simpa [hconcat] using hwf res hres
  exact { h with shapeS := hlast }

end Cells

/-! ### Commands -/

section Commands

variable {s u : State}

/-- Each of the three parts of the second half of ENCODE, and its last placement (R221). -/
theorem finishSymbol_eq_some {level : Nat} {stream : List Byte} :
    s.finishSymbol level stream = some u ↔
      ∃ s1 s2 s3, s.placeData stream = some s1 ∧ s1.selectMask = some s2 ∧ s2.maskMatrix s2.maskid.toNat = some s3 ∧
        u = s3.placeFormat level s3.maskid.toNat := by
  simp only [State.finishSymbol, Option.bind_eq_some_iff, Option.map_eq_some_iff]
  constructor
  · rintro ⟨s1, h1, s2, h2, s3, h3, rfl⟩
    exact ⟨s1, s2, s3, h1, h2, h3, rfl⟩
  · rintro ⟨s1, s2, s3, h1, h2, h3, rfl⟩
    exact ⟨s1, h1, s2, h2, s3, h3, rfl⟩

theorem size_of_placeData {stream : List Byte} (h : s.placeData stream = some u) : u.size = s.size := by
  obtain ⟨res, -, rfl⟩ := Option.map_eq_some_iff.1 h
  rfl

theorem size_of_selectMask (h : s.selectMask = some u) : u.size = s.size := by
  obtain ⟨res, -, rfl⟩ := Option.map_eq_some_iff.1 h
  rfl

theorem size_of_maskMatrix {m : Nat} (h : s.maskMatrix m = some u) : u.size = s.size := by
  obtain ⟨p, -, rfl⟩ := Option.map_eq_some_iff.1 h
  rfl

theorem State.Inv.finishSymbol (h : s.Inv) (hsize : s.size ≠ 0#6) {level : Nat} {stream : List Byte}
    (hu : s.finishSymbol level stream = some u) : u.Inv := by
  obtain ⟨s1, s2, s3, hdata, hselect, hmask, rfl⟩ := finishSymbol_eq_some.1 hu
  have h3 : s3.Inv := ((h.placeData hdata).selectMask hselect).maskMatrix hmask
  refine h3.placeFormat ?_ _ _
  rwa [size_of_maskMatrix hmask, size_of_selectMask hselect, size_of_placeData hdata]

theorem State.Inv.buildSymbol (h : s.Inv) {v : Nat} (hv : 1 ≤ v ∧ v ≤ 5) (level : Nat) (p : List Byte) :
    (s.buildSymbol level v p).Inv := by
  obtain ⟨hd, hn⟩ := capacityOf_le v
  have hregisters : State.Inv { s with ver := BitVec.ofNat 32 v, cap := capWord v } := { h with }
  have hstream := (hregisters.putData (d := (capacityOf v).1) (by omega) p).putEc (n := (capacityOf v).2) (by omega)
    (show (capacityOf v).1 + _ ≤ 256 by omega) (dataCodewords (capacityOf v).1 p)
  exact ((hstream.initMatrix hv).placeFinders.placeSeparators.placeTiming.placeDark).placeFormat (legalSize_sideOf hv).2 level 0

/-- The version that ENCODE and VERFOR choose is one of the five (R131). -/
theorem versionFor_range (L : Nat) : 1 ≤ versionFor L ∧ versionFor L ≤ 5 :=
  have h := isVersionFor_versionFor L
  ⟨h.1, h.2.1⟩

theorem streamInRange_iff {d n : Byte} : streamInRange d n = true ↔ n.toNat ≤ 32 ∧ d.toNat + n.toNat ≤ 256 := decide_eq_true_iff

/-- The rule of a command keeps the invariant. -/
theorem State.Inv.effect {i : Instr} (h : s.Inv) (hu : effect i s = .ok u) : u.Inv := by
  cases i
  case nop => exact runNop_ok.1 hu ▸ h
  case gfmul =>
    obtain rfl := runGfmul_ok.1 hu
    exact { h with }
  case gfdiv =>
    obtain ⟨q, -, rfl⟩ := runGfdiv_ok.1 hu
    exact { h with }
  case fmtbits =>
    obtain ⟨-, rfl⟩ := runFmtbits_ok.1 hu
    exact { h with }
  case verfor =>
    obtain rfl := runVerfor_ok.1 hu
    exact { h with }
  case capof =>
    obtain ⟨-, rfl⟩ := runCapof_ok.1 hu
    exact { h with }
  case denc =>
    obtain ⟨-, -, -, p, -, rfl⟩ := runDenc_ok.1 hu
    exact h.putData (by have := capacityOf_le s.ver.toNat; omega) p
  case rsgen =>
    obtain ⟨hn, rfl⟩ := runRsgen_ok.1 hu
    exact h.putGen (degreeInRange_iff.1 hn)
  case rsenc =>
    obtain ⟨hrange, data, -, rfl⟩ := runRsenc_ok.1 hu
    obtain ⟨hn, hdn⟩ := streamInRange_iff.1 hrange
    exact h.putEc hn hdn data
  case mxinit =>
    obtain ⟨hv, rfl⟩ := runMxinit_ok.1 hu
    exact h.initMatrix (versionInRange_iff.1 hv)
  case mxfind =>
    obtain ⟨-, rfl⟩ := runMxfind_ok.1 hu
    exact h.placeFinders
  case mxsep =>
    obtain ⟨-, rfl⟩ := runMxsep_ok.1 hu
    exact h.placeSeparators
  case mxtime =>
    obtain ⟨-, rfl⟩ := runMxtime_ok.1 hu
    exact h.placeTiming
  case mxdark =>
    obtain ⟨-, rfl⟩ := runMxdark_ok.1 hu
    exact h.placeDark
  case mxfmt =>
    obtain ⟨-, hsize, rfl⟩ := runMxfmt_ok.1 hu
    exact h.placeFormat hsize _ _
  case mxdata =>
    obtain ⟨-, -, stream, -, hdata⟩ := runMxdata_ok.1 hu
    exact h.placeData hdata
  case mskapply =>
    obtain ⟨-, -, hmask⟩ := runMskapply_ok.1 hu
    exact h.maskMatrix hmask
  case mskscore =>
    obtain ⟨-, -, res, hres, rfl⟩ := runMskscore_ok.1 hu
    exact h.putScore hres
  case penalty =>
    obtain ⟨-, p, -, rfl⟩ := runPenaltyCmd_ok.1 hu
    exact { h with }
  case msksel =>
    obtain ⟨-, hselect⟩ := runMsksel_ok.1 hu
    exact h.selectMask hselect
  case encode =>
    obtain ⟨-, -, -, p, -, hfinish⟩ := runEncode_ok.1 hu
    have hv := versionFor_range s.len.toNat
    exact (h.buildSymbol hv _ p).finishSymbol (legalSize_sideOf hv).2 hfinish

theorem State.Inv.complete (h : s.Inv) : s.complete.Inv := { h with noErrWhileBusy := fun hbusy => nomatch hbusy }

theorem State.Inv.reportError (h : s.Inv) (c : ErrCode) (w : Word) : (s.reportError c w).Inv :=
  { h with noErrWhileBusy := fun hbusy => nomatch hbusy }

theorem State.Inv.exec {i : Instr} {t : State} (h : s.Inv) (ht : exec i s = .next t) : t.Inv := by
  obtain ⟨u, hu, rfl⟩ | ⟨c, -, rfl⟩ := exec_next.1 ht
  · exact (h.effect hu).complete
  · exact h.reportError c _

theorem State.Inv.engineStep {w : Word} {t : State} (h : s.Inv) (ht : engineStep w s = .next t) : t.Inv := by
  obtain ⟨i, -, hexec⟩ | ⟨e, -, rfl⟩ := engineStep_next.1 ht
  · exact h.exec hexec
  · exact h.reportError .illcmd w

end Commands

/-! ### Host events -/

section HostEvents

variable {s t : State}

/-- The state after reset, under any parameters (R260, R261). -/
theorem inv_resetWith (c : Config) : (State.resetWith c).Inv where
  rom := rfl
  memCanonical := List.Pairwise.nil
  memInBuffers := fun _ hp => nomatch hp
  shapeM := Plane.unwritten_wf
  shapeR := Plane.unwritten_wf
  shapeS := Plane.unwritten_wf
  size := .inl rfl
  writtenM := fun h => absurd rfl h
  writtenR := fun h => absurd rfl h
  noErrWhileBusy := fun h => nomatch h

/-- A CMD write makes a command pending only while ERR = 0 (R234). -/
theorem State.Inv.writeCmd (h : s.Inv) (hidle : s.pend = none) (w : Word) : (s.writeCmd w).Inv := by
  unfold State.writeCmd
  split
  · exact { h with noErrWhileBusy := fun hbusy => by simp [hidle] at hbusy }
  · rename_i herr
    exact { h with noErrWhileBusy := fun _ => Bool.eq_false_iff.2 herr }

theorem State.Inv.writeReg (h : s.Inv) (hidle : s.pend = none) {v : Word} {r : Reg} (ht : s.writeReg v r = some t) : t.Inv := by
  cases r <;> simp only [State.writeReg, reduceCtorEq, Option.some.injEq] at ht <;> subst ht
  case ctrl | len | ver | cwlen => exact { h with }
  case status => exact { h with noErrWhileBusy := fun hbusy => by simp [hidle] at hbusy }
  case cmd => exact h.writeCmd hidle v

theorem placeAt_payload {k : Nat} (hk : k < 0x100) : placeAt (0x100 + k) .byte = some (.payload k) := by
  rw [placeAt, if_pos (by omega), Nat.add_sub_cancel_left]

theorem placeAt_cw {k : Nat} (hk : k < 0x100) : placeAt (0x200 + k) .byte = some (.cw k) := by
  rw [placeAt, if_neg (by omega), if_pos (by omega), Nat.add_sub_cancel_left]

theorem placeAt_gen {k : Nat} (hk : k < 33) : placeAt (0x300 + k) .byte = some (.gen k) := by
  rw [placeAt, if_neg (by omega), if_neg (by omega), if_pos (by omega), Nat.add_sub_cancel_left]

theorem placeAt_mat {r c : Nat} (hr : r < 64) (hc : c < 64) : placeAt (0x1000 + 64 * r + c) .byte = some (.mat r c) := by
  have hoff : (BitVec.ofNat 13 (0x1000 + 64 * r + c)).toNat = 0x1000 + 64 * r + c := by
    rw [BitVec.toNat_ofNat]
    omega
  exact hoff ▸ placeAt_matOffset hr hc

/-- An 8-bit access names a byte of a buffer or a cell (R61, R63, R64). -/
theorem placeAt_byte_eq_some {off : Nat} {q : Place} :
    placeAt off .byte = some q ↔
      (∃ k < 0x100, off = 0x100 + k ∧ q = .payload k) ∨ (∃ k < 0x100, off = 0x200 + k ∧ q = .cw k) ∨
        (∃ k < 33, off = 0x300 + k ∧ q = .gen k) ∨
          ∃ r < 64, ∃ c < 64, off = 0x1000 + 64 * r + c ∧ q = .mat r c := by
  constructor
  · intro hq
    simp only [placeAt] at hq
    split_ifs at hq with hpayload hcw hgen hmat
    · exact .inl ⟨off - 0x100, by omega, by omega, (Option.some.inj hq).symm⟩
    · exact .inr (.inl ⟨off - 0x200, by omega, by omega, (Option.some.inj hq).symm⟩)
    · exact .inr (.inr (.inl ⟨off - 0x300, by omega, by omega, (Option.some.inj hq).symm⟩))
    · exact .inr (.inr (.inr ⟨(off - 0x1000) / 64, by omega, (off - 0x1000) % 64, by omega, by omega,
        (Option.some.inj hq).symm⟩))
  · rintro (⟨k, hk, rfl, rfl⟩ | ⟨k, hk, rfl, rfl⟩ | ⟨k, hk, rfl, rfl⟩ | ⟨r, hr, c, hc, rfl, rfl⟩)
    · exact placeAt_payload hk
    · exact placeAt_cw hk
    · exact placeAt_gen hk
    · exact placeAt_mat hr hc

theorem State.Inv.writeMat (h : s.Inv) {r c : Nat} {v : Word} (ht : s.writePlace v (.mat r c) = .ok t) : t.Inv := by
  by_cases hin : r < s.size.toNat ∧ c < s.size.toNat
  · rw [writePlace_mat hin] at ht
    obtain rfl := Except.ok.inj ht
    have hplane : ∀ b, InPlane [⟨r, c, b⟩] := fun b w hw => by
      obtain rfl := List.mem_singleton.1 hw
      exact ⟨hin.1.trans_le h.size.le_maxSize, hin.2.trans_le h.size.le_maxSize⟩
    exact h.setCells (hplane (v.getLsbD 0)) (hplane (v.getLsbD 1))
  · rw [writePlace_mat_outside hin] at ht
    cases ht

theorem State.Inv.writePlace (h : s.Inv) (hidle : s.pend = none) {off : Nat} {n : Width} {v : Word} {q : Place}
    (hq : placeAt off n = some q) (ht : s.writePlace v q = .ok t) : t.Inv := by
  cases n with
  | word =>
    obtain ⟨r, -, rfl⟩ := Option.map_eq_some_iff.1 hq
    simp only [State.writePlace] at ht
    split at ht
    · rename_i u hu
      exact Except.ok.inj ht ▸ h.writeReg hidle hu
    · cases ht
  | half => cases hq
  | byte =>
    obtain ⟨k, hk, -, rfl⟩ | ⟨k, hk, -, rfl⟩ | ⟨k, -, -, rfl⟩ | ⟨r, -, c, -, -, rfl⟩ := placeAt_byte_eq_some.1 hq
    · obtain rfl := Except.ok.inj ht
      refine h.writeBytes (bs := [v.setWidth 8]) fun x hlow hhigh => ?_
      simp only [payloadBase, List.length_singleton] at hlow hhigh
      exact inBuffers_payload (by omega) (by omega)
    · obtain rfl := Except.ok.inj ht
      refine h.writeBytes (bs := [v.setWidth 8]) fun x hlow hhigh => ?_
      simp only [cwBase, List.length_singleton] at hlow hhigh
      exact inBuffers_cw (by omega) (by omega)
    · cases ht
    · exact h.writeMat ht

theorem State.Inv.hostAccess (h : s.Inv) {a : Access} (ht : s.hostAccess a = .ok t) : t.Inv := by
  cases a with
  | read off n =>
    obtain ⟨-, q, v, -, -, rfl⟩ := hostAccess_read_ok.1 ht
    exact { h with }
  | write off n v =>
    obtain ⟨hidle, q, hq, hwrite⟩ := hostAccess_write_ok.1 ht
    exact h.writePlace hidle hq hwrite

theorem State.Inv.takeEvent (h : s.Inv) (rest : List HostEvent) : (s.takeEvent rest).Inv := { h with }

theorem State.Inv.hostStep (h : s.Inv) {e : HostEvent} {rest : List HostEvent} (ht : hostStep e rest s = .next t) : t.Inv := by
  obtain ⟨a, -, haccess⟩ | ⟨-, rfl⟩ | ⟨-, rfl⟩ := hostStep_next.1 ht
  · exact (h.takeEvent rest).hostAccess haccess
  · split
    · exact h.takeEvent _
    · exact h.takeEvent _
  · exact { inv_resetWith s.cfg with }

end HostEvents

/-- Settles O57: whoever moves, the Engine, the Host or the platform, keeps the invariant, and an idle block stays as it is. -/
theorem everyStepKeepsTheInvariant : Obligations.EveryStepKeepsTheInvariant := by
  intro s t h ht
  obtain ⟨w, -, hengine⟩ | ⟨e, rest, -, hhost⟩ | ⟨-, rfl⟩ := step_next.1 ht
  · exact h.engineStep hengine
  · exact h.hostStep hhost
  · exact h

end Sys2Proof.Machine
end

section
/-! PROOFS of the register ranges: a rule writes CAP, BITCNT and PENTAB within their ranges, a reported error writes a named code, and no
other step writes these registers but the reset (R30, R35, R130, R186, R202, R231). -/

namespace Sys2Proof.Machine

open Sys2Proof.Claims

/-! ### The largest penalty (R202) -/

/-- The penalty of a line that begins with a run seen so far. -/
theorem linePenaltyFrom_le (prev : Bool) {run : Nat} (hrun : 1 ≤ run) (xs : List Bool) :
    linePenaltyFrom prev run xs ≤ run + xs.length - 2 := by
  induction xs generalizing prev run with
  | nil =>
    unfold linePenaltyFrom runPenalty
    split <;> omega
  | cons x xs ih =>
    rw [linePenaltyFrom, List.length_cons]
    split
    · have := ih prev (run := run + 1) (by omega)
      omega
    · have := ih x (run := 1) le_rfl
      unfold runPenalty
      split <;> omega

theorem linePenalty_le (xs : List Bool) : linePenalty xs ≤ xs.length - 2 := by
  cases xs with
  | nil => exact Nat.zero_le _
  | cons x xs =>
    have := linePenaltyFrom_le x le_rfl xs
    rw [linePenalty, List.length_cons]
    omega

/-- A plane has two lines for each index of its side, and each has a cell for each index. -/
theorem length_of_lines {p : Plane} {side : Nat} {ls : List (List Bool)} (h : p.lines side = some ls) :
    ls.length = 2 * side ∧ ∀ l ∈ ls, l.length = side := by
  rw [Plane.lines, allPresent_eq_some] at h
  refine ⟨by simpa [two_mul] using (congrArg List.length h).symm, fun l hl => ?_⟩
  have hmem : some l ∈ (List.range side).map (p.row side) ++ (List.range side).map (p.col side) := h ▸ List.mem_map_of_mem hl
  have hlength : ∀ f : Nat → Option Bool, allPresent ((List.range side).map f) = some l → l.length = side := fun f hf => by
    simpa using (congrArg List.length (allPresent_eq_some.1 hf)).symm
  rcases List.mem_append.1 hmem with hmem | hmem
  all_goals
    obtain ⟨k, -, hline⟩ := List.mem_map.1 hmem
    exact hlength _ hline

/-- A penalty is at most 2 · 37 · 35 (R202). -/
theorem penalty_le {p : Plane} {side n : Nat} (hside : side ≤ maxSize) (h : p.penalty side = some n) : n ≤ 2590 := by
  obtain ⟨ls, hls, rfl⟩ := Option.map_eq_some_iff.1 h
  obtain ⟨hlength, hline⟩ := length_of_lines hls
  have hle : ∀ x ∈ ls.map linePenalty, x ≤ side - 2 := by
    intro x hx
    obtain ⟨l, hl, rfl⟩ := List.mem_map.1 hx
    exact hline l hl ▸ linePenalty_le l
  calc (ls.map linePenalty).sum
    _ ≤ (ls.map linePenalty).length * (side - 2) := List.sum_le_card_nsmul _ _ hle
    _ = 2 * side * (side - 2) := by rw [List.length_map, hlength]
    _ ≤ 2 * 37 * 35 := Nat.mul_le_mul (Nat.mul_le_mul_left 2 hside) (Nat.sub_le_sub_right hside 2)

/-! ### The first half of ENCODE, field by field (R221) -/

section BuildSymbol

variable (s : State) (level v : Nat) (p : List Byte)

@[simp] theorem State.buildSymbol_cfg : (s.buildSymbol level v p).cfg = s.cfg := by simp [State.buildSymbol]
@[simp] theorem State.buildSymbol_ctrl : (s.buildSymbol level v p).ctrl = s.ctrl := by simp [State.buildSymbol]
@[simp] theorem State.buildSymbol_status : (s.buildSymbol level v p).status = s.status := by simp [State.buildSymbol]
@[simp] theorem State.buildSymbol_pend : (s.buildSymbol level v p).pend = s.pend := by simp [State.buildSymbol]
@[simp] theorem State.buildSymbol_result : (s.buildSymbol level v p).result = s.result := by simp [State.buildSymbol]
@[simp] theorem State.buildSymbol_errinfo : (s.buildSymbol level v p).errinfo = s.errinfo := by simp [State.buildSymbol]
@[simp] theorem State.buildSymbol_len : (s.buildSymbol level v p).len = s.len := by simp [State.buildSymbol]
@[simp] theorem State.buildSymbol_maskid : (s.buildSymbol level v p).maskid = s.maskid := by simp [State.buildSymbol]
@[simp] theorem State.buildSymbol_bitcnt : (s.buildSymbol level v p).bitcnt = s.bitcnt := by simp [State.buildSymbol]
@[simp] theorem State.buildSymbol_pentab : (s.buildSymbol level v p).pentab = s.pentab := by simp [State.buildSymbol]
@[simp] theorem State.buildSymbol_planeS : (s.buildSymbol level v p).planeS = s.planeS := by simp [State.buildSymbol]
@[simp] theorem State.buildSymbol_rom : (s.buildSymbol level v p).rom = s.rom := by simp [State.buildSymbol]
@[simp] theorem State.buildSymbol_hostQ : (s.buildSymbol level v p).hostQ = s.hostQ := by simp [State.buildSymbol]
@[simp] theorem State.buildSymbol_readLog : (s.buildSymbol level v p).readLog = s.readLog := by simp [State.buildSymbol]
@[simp] theorem State.buildSymbol_left : (s.buildSymbol level v p).left = s.left := by simp [State.buildSymbol]
@[simp] theorem State.buildSymbol_issued : (s.buildSymbol level v p).issued = s.issued := by simp [State.buildSymbol]
@[simp] theorem State.buildSymbol_ver : (s.buildSymbol level v p).ver = BitVec.ofNat 32 v := by simp [State.buildSymbol]
@[simp] theorem State.buildSymbol_cap : (s.buildSymbol level v p).cap = capWord v := by simp [State.buildSymbol]
@[simp] theorem State.buildSymbol_size : (s.buildSymbol level v p).size = BitVec.ofNat 6 (sideOf v) := by simp [State.buildSymbol]
@[simp] theorem State.buildSymbol_cwlen :
    (s.buildSymbol level v p).cwlen = BitVec.ofNat 32 ((capacityOf v).1 + (capacityOf v).2) := by simp [State.buildSymbol]

end BuildSymbol

section Ranges

variable {s u : State}

theorem scoreMask_le (hside : s.size.toNat ≤ maxSize) {m : Nat} {res : Plane × Nat} (h : s.scoreMask m = some res) :
    res.2 ≤ 2590 :=
  penalty_le hside (scoreMask_eq_some.1 h).2

/-! ### The rules -/

theorem capWord_range {v : Nat} (hv : 1 ≤ v ∧ v ≤ 5) :
    capWord v = 0#16 ∨ capWord v = 0x0713#16 ∨ capWord v = 0x0A22#16 ∨ capWord v = 0x0F37#16 ∨ capWord v = 0x1450#16 ∨
      capWord v = 0x1A6C#16 := by
  obtain ⟨hlow, hhigh⟩ := hv
  interval_cases v <;> decide

/-- BITCNT is at most the number of stream bits (R186). -/
theorem State.Ranges.placeData (h : s.Ranges) {stream : List Byte} (hlength : stream.length ≤ 256)
    (hu : s.placeData stream = some u) : u.Ranges := by
  obtain ⟨⟨m, k⟩, hplace, rfl⟩ := Option.map_eq_some_iff.1 hu
  have hk : k ≤ 2048 := by
    have := placeBits_count hplace
    rw [codewordBits_length] at this
    omega
  refine { h with bitcnt := ?_ }
  rw [BitVec.toNat_ofNat]
  omega

theorem State.Ranges.maskMatrix (h : s.Ranges) {m : Nat} (hu : s.maskMatrix m = some u) : u.Ranges := by
  obtain ⟨p, -, rfl⟩ := Option.map_eq_some_iff.1 hu
  exact { h with }

theorem State.Ranges.putScore (h : s.Ranges) (hside : s.size.toNat ≤ maxSize) {m : Nat} {res : Plane × Nat}
    (hres : s.scoreMask m = some res) : (s.putScore m res).Ranges := by
  refine { h with pentab := fun k hk => ?_ }
  by_cases hkm : k = m
  · have := scoreMask_le hside hres
    rw [← hkm, penaltyOf_putScore_same s res hk, BitVec.toNat_ofNat]
    omega
  · rw [penaltyOf_putScore_other s res hkm]
    exact h.pentab k hk

theorem State.Ranges.selectMask (h : s.Ranges) (hside : s.size.toNat ≤ maxSize) (hu : s.selectMask = some u) : u.Ranges := by
  obtain ⟨results, hall, rfl⟩ := Option.map_eq_some_iff.1 hu
  refine { h with pentab := fun m hm => ?_ }
  have hscore : ∃ res, s.scoreMask m = some res ∧ results[m]? = some res := by
    have := congrArg (fun l => l[m]?) (scoreAll_eq_some.1 hall)
    simp only [List.getElem?_map, List.getElem?_range hm, Option.map_some] at this
    obtain ⟨res, hres, heq⟩ := Option.map_eq_some_iff.1 this.symm
    exact ⟨res, heq.symm, hres⟩
  obtain ⟨res, hres, hget⟩ := hscore
  have := scoreMask_le hside hres
  rw [penaltyOf_putSelection s results hm, List.getD_eq_getElem?_getD, List.getElem?_map, hget, BitVec.toNat_ofNat]
  simp only [Option.map_some, Option.getD_some]
  omega

theorem State.Ranges.buildSymbol (h : s.Ranges) {v : Nat} (hv : 1 ≤ v ∧ v ≤ 5) (level : Nat) (p : List Byte) :
    (s.buildSymbol level v p).Ranges where
  errCode := by simpa using h.errCode
  errNamed := by simpa using h.errNamed
  cap := by simpa using capWord_range hv
  bitcnt := by simpa using h.bitcnt
  pentab := by simpa [State.penaltyOf] using h.pentab

theorem symbolStream_length (s : State) (v : Nat) (p : List Byte) :
    (s.symbolStream v p).length = (capacityOf v).1 + (capacityOf v).2 := by
  rw [State.symbolStream, List.length_append, dataCodewords_length, remainder_buildGen_length]

theorem State.Ranges.runEncode (h : s.Ranges) {a : Byte} (hu : runEncode a s = .ok u) : u.Ranges := by
  obtain ⟨-, -, -, p, -, hfinish⟩ := runEncode_ok.1 hu
  obtain ⟨s1, s2, s3, hdata, hselect, hmask, rfl⟩ := finishSymbol_eq_some.1 hfinish
  have hv := versionFor_range s.len.toNat
  have h1 : s1.Ranges := by
    refine (h.buildSymbol hv _ p).placeData ?_ hdata
    have := capacityOf_le (versionFor s.len.toNat)
    rw [symbolStream_length]
    omega
  have hside : s1.size.toNat ≤ maxSize := by
    rw [size_of_placeData hdata, State.buildSymbol_size]
    exact (legalSize_sideOf hv).1.le_maxSize
  exact { (h1.selectMask hside hselect).maskMatrix hmask with }

/-- The rule of a command keeps the registers in their ranges. -/
theorem State.Ranges.effect {i : Instr} (h : s.Ranges) (hinv : s.Inv) (hu : effect i s = .ok u) : u.Ranges := by
  cases i
  case nop => exact runNop_ok.1 hu ▸ h
  case gfmul =>
    obtain rfl := runGfmul_ok.1 hu
    exact { h with }
  case gfdiv =>
    obtain ⟨q, -, rfl⟩ := runGfdiv_ok.1 hu
    exact { h with }
  case fmtbits =>
    obtain ⟨-, rfl⟩ := runFmtbits_ok.1 hu
    exact { h with }
  case verfor =>
    obtain rfl := runVerfor_ok.1 hu
    exact { h with }
  case capof =>
    obtain ⟨hv, rfl⟩ := runCapof_ok.1 hu
    exact { h with cap := capWord_range (versionInRange_iff.1 hv) }
  case denc =>
    obtain ⟨-, -, -, p, -, rfl⟩ := runDenc_ok.1 hu
    exact { h with }
  case rsgen =>
    obtain ⟨-, rfl⟩ := runRsgen_ok.1 hu
    exact { h with }
  case rsenc =>
    obtain ⟨-, data, -, rfl⟩ := runRsenc_ok.1 hu
    exact { h with }
  case mxinit =>
    obtain ⟨-, rfl⟩ := runMxinit_ok.1 hu
    exact { h with }
  case mxfind =>
    obtain ⟨-, rfl⟩ := runMxfind_ok.1 hu
    exact { h with }
  case mxsep =>
    obtain ⟨-, rfl⟩ := runMxsep_ok.1 hu
    exact { h with }
  case mxtime =>
    obtain ⟨-, rfl⟩ := runMxtime_ok.1 hu
    exact { h with }
  case mxdark =>
    obtain ⟨-, rfl⟩ := runMxdark_ok.1 hu
    exact { h with }
  case mxfmt =>
    obtain ⟨-, -, rfl⟩ := runMxfmt_ok.1 hu
    exact { h with }
  case mxdata =>
    obtain ⟨hrange, -, stream, hread, hdata⟩ := runMxdata_ok.1 hu
    refine h.placeData ?_ hdata
    rw [(Memory.readBytes_eq_some.1 hread).1]
    exact of_decide_eq_true hrange
  case mskapply =>
    obtain ⟨-, -, hmask⟩ := runMskapply_ok.1 hu
    exact h.maskMatrix hmask
  case mskscore =>
    obtain ⟨-, -, res, hres, rfl⟩ := runMskscore_ok.1 hu
    exact h.putScore hinv.size.le_maxSize hres
  case penalty =>
    obtain ⟨-, p, -, rfl⟩ := runPenaltyCmd_ok.1 hu
    exact { h with }
  case msksel =>
    obtain ⟨-, hselect⟩ := runMsksel_ok.1 hu
    exact h.selectMask hinv.size.le_maxSize hselect
  case encode => exact h.runEncode hu

/-- The codes of the reported errors are 1..5 (R231). -/
theorem code_range (c : ErrCode) : c.code ≤ 5#4 ∧ c.code ≠ 0#4 := by cases c <;> decide

theorem State.Ranges.reportError (h : s.Ranges) (c : ErrCode) (w : Word) : (s.reportError c w).Ranges :=
  { h with
    errCode := (code_range c).1
    errNamed := fun _ => (code_range c).2 }

theorem State.Ranges.engineStep {w : Word} {t : State} (h : s.Ranges) (hinv : s.Inv) (ht : engineStep w s = .next t) :
    t.Ranges := by
  obtain ⟨i, -, hexec⟩ | ⟨e, -, rfl⟩ := engineStep_next.1 ht
  · obtain ⟨u, hu, rfl⟩ | ⟨c, -, rfl⟩ := exec_next.1 hexec
    · exact { h.effect hinv hu with }
    · exact h.reportError c _
  · exact h.reportError .illcmd w

/-! ### Host events -/

theorem ranges_resetWith (c : Config) : (State.resetWith c).Ranges where
  errCode := show 0#4 ≤ 5#4 by decide
  errNamed := fun h => nomatch h
  cap := .inl rfl
  bitcnt := Nat.zero_le _
  pentab := show ∀ m < 8, ((List.replicate 8 0#16).getD m 0#16).toNat ≤ 2590 by decide

/-- A STATUS write keeps ERRCODE and can only clear ERR (R235). -/
theorem State.Ranges.clearStatus (h : s.Ranges) (v : Word) : (s.clearStatus v).Ranges :=
  { h with errNamed := fun herr => h.errNamed (Bool.and_eq_true_iff.1 herr).1 }

theorem State.Ranges.writeReg (h : s.Ranges) {v : Word} {r : Reg} (hu : s.writeReg v r = some u) : u.Ranges := by
  cases r <;> simp only [State.writeReg, reduceCtorEq, Option.some.injEq] at hu <;> subst hu
  case ctrl | len | ver | cwlen => exact { h with }
  case status => exact h.clearStatus v
  case cmd =>
    unfold State.writeCmd
    split <;> exact { h with }

theorem State.Ranges.writePlace (h : s.Ranges) {v : Word} {q : Place} (hu : s.writePlace v q = .ok u) : u.Ranges := by
  cases q with
  | reg r =>
    simp only [State.writePlace] at hu
    split at hu
    · rename_i hreg
      exact Except.ok.inj hu ▸ h.writeReg hreg
    · cases hu
  | payload k | cw k =>
    obtain rfl := Except.ok.inj hu
    exact { h with }
  | gen k => cases hu
  | mat r c =>
    by_cases hin : r < s.size.toNat ∧ c < s.size.toNat
    · rw [writePlace_mat hin] at hu
      obtain rfl := Except.ok.inj hu
      exact { h with }
    · rw [writePlace_mat_outside hin] at hu
      cases hu

theorem State.Ranges.hostAccess (h : s.Ranges) {a : Access} (hu : s.hostAccess a = .ok u) : u.Ranges := by
  cases a with
  | read off n =>
    obtain ⟨-, q, v, -, -, rfl⟩ := hostAccess_read_ok.1 hu
    exact { h with }
  | write off n v =>
    obtain ⟨-, q, -, hwrite⟩ := hostAccess_write_ok.1 hu
    exact h.writePlace hwrite

theorem State.Ranges.takeEvent (h : s.Ranges) (rest : List HostEvent) : (s.takeEvent rest).Ranges := { h with }

theorem State.Ranges.hostStep (h : s.Ranges) {e : HostEvent} {rest : List HostEvent} (hu : hostStep e rest s = .next u) :
    u.Ranges := by
  obtain ⟨a, -, haccess⟩ | ⟨-, rfl⟩ | ⟨-, rfl⟩ := hostStep_next.1 hu
  · exact (h.takeEvent rest).hostAccess haccess
  · split
    · exact h.takeEvent _
    · exact h.takeEvent _
  · exact { ranges_resetWith s.cfg with }

end Ranges

/-- Settles O58: whoever moves keeps the registers in their ranges, and an idle block stays as it is. -/
theorem everyStepKeepsTheRegisterRanges : Obligations.EveryStepKeepsTheRegisterRanges := by
  intro s t hinv h ht
  obtain ⟨w, -, hengine⟩ | ⟨e, rest, -, hhost⟩ | ⟨-, rfl⟩ := step_next.1 ht
  · exact h.engineStep hinv hengine
  · exact h.hostStep hhost
  · exact h

/-- Settles O56: reset empties what the invariant and the ranges speak of, and loads the tables. -/
theorem resetSatisfiesTheInvariants : Obligations.ResetSatisfiesTheInvariants := fun c =>
  ⟨inv_resetWith c, ranges_resetWith c⟩

end Sys2Proof.Machine
end

section
/-! PROOFS of the format information: the word of R177 is that of the printed table, and the writes of MXFMT draw the 30 cells of the two
copies, each with the bit of its place in its copy (R177 to R182). -/

namespace Sys2Proof.Machine

open Sys2Proof.Claims

/-! ### The forms CMD-AB -/

/-- A decoder arm with the mask of CMD-AB gives its command a form with the operands A and B (R93, R100). -/
theorem commandForm_of_decode_maskAB {opc : Byte} {mk : Byte → Byte → Instr}
    (hdecode : ∀ w, fieldOpc w = opc → decode w = checkForm maskAB (assemble opc 0#8 0#8) w (mk (fieldA w) (fieldB w))) :
    CommandForm opc true true mk := by
  refine commandForm_of_decode hdecode fun w hopc => ?_
  rw [masked_maskAB]
  simp only [hopc, true_and, true_or, and_true]

theorem fmtbits_commandForm : CommandForm 0x08#8 true true .fmtbits := by
  refine commandForm_of_decode_maskAB fun w hopc => ?_
  rw [decode, hopc]
  rfl

theorem mxfmt_commandForm : CommandForm 0x45#8 true true .mxfmt := by
  refine commandForm_of_decode_maskAB fun w hopc => ?_
  rw [decode, hopc]
  rfl

/-! ### The format word -/

/-- The table of R177 holds the remainders of the division that R177 describes. -/
theorem fmtWord_eq_formatOf : ∀ level ≤ 3, ∀ mask ≤ 7, fmtWord level mask = formatOf level mask := by decide

theorem fmtBit_eq_formatBit (o : FmtBitOrder) (f : BitVec 15) (i : Nat) : fmtBit o f i = formatBit o f i := by
  cases o <;> rfl

theorem levelInRange_iff {a : Byte} : levelInRange a = true ↔ a ≤ 3#8 := by
  rw [levelInRange, decide_eq_true_iff, BitVec.le_def]
  rfl

/-- The check of FMTBITS and MXFMT (R92). -/
theorem levelAndMaskInRange_iff {a b : Byte} : (levelInRange a && maskInRange b) = true ↔ a ≤ 3#8 ∧ b ≤ 7#8 := by
  rw [Bool.and_eq_true, levelInRange_iff, maskInRange_iff]

theorem fmtWord_of_inRange {a b : Byte} (ha : a ≤ 3#8) (hb : b ≤ 7#8) : fmtWord a.toNat b.toNat = formatOf a.toNat b.toNat :=
  fmtWord_eq_formatOf a.toNat ha b.toNat hb

/-! ### The cells of the two copies -/

theorem map_fmtCell1 : (List.range 15).map fmtCell1 = copyOne := by decide

theorem map_fmtCell2 {side : Nat} (hside : 21 ≤ side) : (List.range 15).map (fmtCell2 side) = copyTwo side := by
  simp only [fmtCell2, copyTwo, List.range_succ_eq_map, List.range_zero, List.map_cons, List.map_nil, List.cons_append,
    List.nil_append, Nat.succ_eq_add_one]
  simp
  omega

/-- The place of a format cell in its copy: along row 8, or along column 8 (R179, R180). -/
def fmtIndex (side r c : Nat) : Nat :=
  if r = 8 then if c ≤ 5 then c else if c ≤ 8 then c - 1 else c + 15 - side
  else if r = 7 then 8 else if r < 7 then 14 - r else side - 1 - r

theorem fmtIndex_fmtCell1 {side : Nat} : ∀ i < 15, fmtIndex side (fmtCell1 i).1 (fmtCell1 i).2 = i := by
  intro i hi
  unfold fmtCell1
  split_ifs with h5 h7 h8
  all_goals
    simp only [fmtIndex]
    split_ifs <;> omega

theorem fmtIndex_fmtCell2 {side i : Nat} (hside : 21 ≤ side) (hi : i < 15) :
    fmtIndex side (fmtCell2 side i).1 (fmtCell2 side i).2 = i := by
  unfold fmtCell2
  split_ifs with h7
  all_goals
    simp only [fmtIndex]
    split_ifs <;> omega

/-- MXFMT writes the cells of the two copies, each with the bit of its place. -/
theorem draws_fmtWrites (o : FmtBitOrder) (f : BitVec 15) {side : Nat} (hside : 21 ≤ side) :
    Draws (fmtWrites o side f) (fun r c => (r, c) ∈ copyOne ++ copyTwo side) (fun r c => fmtBit o f (fmtIndex side r c)) where
  named r c := by
    rw [← map_fmtCell1, ← map_fmtCell2 hside, List.mem_append]
    constructor
    · rintro ⟨w, hw, rfl, rfl⟩
      refine (List.mem_append.1 hw).imp (fun hw => ?_) fun hw => ?_
      all_goals
        obtain ⟨i, hi, rfl⟩ := List.mem_map.1 hw
        exact List.mem_map_of_mem hi
    · rintro (hcell | hcell) <;> obtain ⟨i, hi, hcell⟩ := List.mem_map.1 hcell
      · exact ⟨_, List.mem_append_left _ (List.mem_map_of_mem hi), congrArg Prod.fst hcell, congrArg Prod.snd hcell⟩
      · exact ⟨_, List.mem_append_right _ (List.mem_map_of_mem hi), congrArg Prod.fst hcell, congrArg Prod.snd hcell⟩
  values w hw := by
    simp only [fmtWrites, List.mem_append, List.mem_map, List.mem_range] at hw
    obtain ⟨i, hi, rfl⟩ | ⟨i, hi, rfl⟩ := hw
    · rw [fmtIndex_fmtCell1 i hi]
    · rw [fmtIndex_fmtCell2 hside hi]

/-! ### The two commands -/

section PlaceFormat

variable {s : State} (hside : 21 ≤ s.size.toNat) (level mask : Nat)

include hside

/-- After MXFMT both copies hold the word. -/
theorem holdsFormat_placeFormat :
    HoldsFormat s.cfg.bitOrder s.size.toNat (s.placeFormat level mask).planeM (fmtWord level mask) := by
  intro i hi cell hcell
  have hbit : ∀ cell ∈ copyOne ++ copyTwo s.size.toNat, fmtIndex s.size.toNat cell.1 cell.2 = i →
      (s.placeFormat level mask).planeM.get cell.1 cell.2 = some (formatBit s.cfg.bitOrder (fmtWord level mask) i) := by
    rintro ⟨r, c⟩ hin hindex
    rw [State.placeFormat_planeM, (draws_fmtWrites _ _ hside).get_setAll _ hin, hindex, fmtBit_eq_formatBit]
  refine hbit cell (List.mem_append.2 (hcell.imp List.mem_of_getElem? List.mem_of_getElem?)) ?_
  rw [← map_fmtCell1, ← map_fmtCell2 hside, List.getElem?_map, List.getElem?_map, List.getElem?_range hi] at hcell
  rcases hcell with hcell | hcell <;> obtain rfl := Option.some.inj hcell
  · exact fmtIndex_fmtCell1 i hi
  · exact fmtIndex_fmtCell2 hside hi

theorem get_planeR_placeFormat {r c : Nat} (hin : (r, c) ∈ copyOne ++ copyTwo s.size.toNat) :
    (s.placeFormat level mask).planeR.get r c = some true := by
  rw [State.placeFormat_planeR]
  exact (draws_fmtWrites _ _ hside).reserveAll.get_setAll _ hin

theorem get_placeFormat_outside {r c : Nat} (hout : (r, c) ∉ copyOne ++ copyTwo s.size.toNat) :
    (s.placeFormat level mask).planeM.get r c = s.planeM.get r c ∧
      (s.placeFormat level mask).planeR.get r c = s.planeR.get r c := by
  have hdraws := draws_fmtWrites s.cfg.bitOrder (fmtWord level mask) hside
  rw [State.placeFormat_planeM, State.placeFormat_planeR]
  exact ⟨hdraws.get_setAll_outside _ hout, hdraws.reserveAll.get_setAll_outside _ hout⟩

end PlaceFormat

/-- Settles O28: MXFMT draws the two copies of the word in M and reserves their cells in R. -/
theorem mxfmtWritesTheWordTwice : Obligations.MxfmtWritesTheWordTwice := by
  refine ⟨mxfmt_commandForm, fun a b s hout => ?_, fun a b s ha hb hsize => ?_, fun a b s ha hb hinv hsize => ?_⟩
  · exact exec_next.2 (.inr ⟨.illopnd, needOperand_illopnd (mt levelAndMaskInRange_iff.1 hout) _, rfl⟩)
  · exact exec_noinit (fun _ => .ok (s.placeFormat a.toNat b.toNat)) (if_pos (levelAndMaskInRange_iff.2 ⟨ha, hb⟩)) hsize
  · have hside := hinv.le_side hsize
    have heffect := runMxfmt_ok.2 ⟨levelAndMaskInRange_iff.2 ⟨ha, hb⟩, hsize, rfl⟩
    rw [← fmtWord_of_inRange ha hb]
    refine ⟨_, exec_next.2 (.inl ⟨_, heffect, rfl⟩), ?_, ?_, fun r c => ?_⟩
    all_goals rw [State.complete_planeM]
    · rw [State.complete_planeR, State.placeFormat_planeM, State.placeFormat_planeR]
      rfl
    · exact holdsFormat_placeFormat hside _ _
    · rw [State.complete_planeR]
      exact ⟨get_planeR_placeFormat hside _ _, get_placeFormat_outside hside _ _⟩

/-- Settles O29: FMTBITS checks its operands only, and its word is that of the table. -/
theorem fmtbitsReturnsTheFormatWord : Obligations.FmtbitsReturnsTheFormatWord := by
  refine ⟨fmtbits_commandForm, fun a b s ha hb => ?_, fun a b s hout => ?_⟩
  · rw [← fmtWord_of_inRange ha hb]
    exact exec_next.2 (.inl ⟨_, runFmtbits_ok.2 ⟨levelAndMaskInRange_iff.2 ⟨ha, hb⟩, rfl⟩, rfl⟩)
  · exact exec_next.2 (.inr ⟨.illopnd, needOperand_illopnd (mt levelAndMaskInRange_iff.1 hout) _, rfl⟩)

end Sys2Proof.Machine
end

section
/-! PROOFS of MXDATA: in a matrix, whatever else the state holds, the stream's bits take the unreserved cells in the closed form's order
(R184 to R186). -/

namespace Sys2Proof.Machine

open Sys2Proof.Claims

/-! ### A state with a matrix -/

/-- The state's current matrix is a written one of a legal side: the part of the invariant that placements and masks need (R33, R171). -/
structure State.HasMatrix (s : State) : Prop where
  shapeM : s.planeM.wf
  shapeR : s.planeR.wf
  size : LegalSize s.size
  size_ne : s.size ≠ 0#6
  writtenM : s.planeM.AllWritten
  writtenR : s.planeR.AllWritten

section HasMatrix

variable {s : State}

theorem State.Inv.hasMatrix (h : s.Inv) (hsize : s.size ≠ 0#6) : s.HasMatrix :=
  { h with size_ne := hsize, writtenM := h.writtenM hsize, writtenR := h.writtenR hsize }

theorem State.HasMatrix.le_side (h : s.HasMatrix) : 21 ≤ s.size.toNat := by
  have := h.size.side h.size_ne
  omega

theorem State.HasMatrix.zigzag_eq (h : s.HasMatrix) : zigzag s.size.toNat = cellOrder s.size.toNat := by
  obtain ⟨hodd, hside⟩ := h.size.odd_side h.size_ne
  exact zigzag_eq_cellOrder hodd (by omega)

theorem State.HasMatrix.nodup_zigzag (h : s.HasMatrix) : (zigzag s.size.toNat).Nodup := by
  obtain ⟨hodd, hside⟩ := h.size.odd_side h.size_ne
  rw [h.zigzag_eq]
  exact nodup_cellOrder hodd (by omega)

/-- The data cells are the unreserved cells that the loop visits. -/
theorem State.HasMatrix.unreservedCells_zigzag (h : s.HasMatrix) :
    unreservedCells s.planeR (zigzag s.size.toNat) = dataCells s.planeR s.size.toNat := by
  rw [h.zigzag_eq]
  rfl

/-! ### The placement -/

theorem exists_placeBits (h : s.HasMatrix) (bits : List Bool) :
    ∃ res, placeBits s.planeR (zigzag s.size.toNat) bits 0 s.planeM = some res := by
  refine Option.isSome_iff_exists.1 (placeBits_isSome (fun cell hcell => ?_) bits 0 s.planeM)
  obtain ⟨hr, hc⟩ := mem_zigzag_lt h.size hcell
  exact h.writtenR _ (hr.trans_le h.size.le_maxSize) _ (hc.trans_le h.size.le_maxSize)

/-- Placing a stream in a matrix succeeds, fills the data cells in order, and leaves the other cells. -/
theorem exists_placeData (h : s.HasMatrix) (stream : List Byte) :
    ∃ m, s.placeData stream = some { s with
        planeM := m
        bitcnt := BitVec.ofNat 12 (min (8 * stream.length) (dataCells s.planeR s.size.toNat).length) } ∧
      (∀ k r c, (dataCells s.planeR s.size.toNat)[k]? = some (r, c) → m.get r c = some ((codewordBits stream).getD k false)) ∧
      ∀ r c, (r, c) ∉ dataCells s.planeR s.size.toNat → m.get r c = s.planeM.get r c := by
  obtain ⟨⟨m, n⟩, hplace⟩ := exists_placeBits h (codewordBits stream)
  have hcount := placeBits_count hplace
  rw [Nat.zero_add, codewordBits_length] at hcount
  rw [State.placeData, hplace, ← h.unreservedCells_zigzag, ← hcount]
  exact ⟨m, rfl, fun k r c hk => placeBits_get hplace h.nodup_zigzag hk, fun r c hout => placeBits_get_other hplace hout⟩

end HasMatrix

/-! ### The bits of a stream (R185) -/

theorem getD_bitsMsbFirst {b : Byte} {k : Nat} (hk : k < 8) : (bitsMsbFirst 8 b.toNat).getD k false = b.getLsbD (7 - k) := by
  simp [bitsMsbFirst, hk, BitVec.testBit_toNat]

theorem getD_codewordBits (cw : List Byte) (k : Nat) :
    (codewordBits cw).getD k false = if k < 8 * cw.length then (cw.getD (k / 8) 0#8).getLsbD (7 - k % 8) else false := by
  induction cw generalizing k with
  | nil => simp [codewordBits]
  | cons b cw ih =>
    have hcons : codewordBits (b :: cw) = bitsMsbFirst 8 b.toNat ++ codewordBits cw := by simp [codewordBits]
    rw [hcons, List.length_cons]
    by_cases hk : k < 8
    · have hquot : k / 8 = 0 := by omega
      have hrem : k % 8 = k := by omega
      rw [List.getD_append _ _ _ _ (by simpa using hk), getD_bitsMsbFirst hk, if_pos (by omega), hquot, hrem]
      rfl
    · have hquot : k / 8 = (k - 8) / 8 + 1 := by omega
      have hrem : k % 8 = (k - 8) % 8 := by omega
      rw [List.getD_append_right _ _ _ _ (by simpa using hk), bitsMsbFirst_length, ih, hquot, hrem, List.getD_cons_succ]
      exact if_congr (by omega) rfl rfl

/-! ### MXDATA -/

theorem mxdata_commandForm : CommandForm 0x46#8 false false (fun _ _ => .mxdata) := by
  refine commandForm_of_decode_maskN fun w hopc => ?_
  rw [decode, hopc]
  rfl

theorem cwlenInRange_iff {n : Nat} : cwlenInRange n = true ↔ n ≤ 256 := decide_eq_true_iff

/-- Settles O30: with the codewords written no check and no read fails, and the placement fills the data cells with their bits. -/
theorem mxdataFillsTheUnreservedCells : Obligations.MxdataFillsTheUnreservedCells := by
  refine ⟨mxdata_commandForm, fun s cw hinv hsize hrange hlength hread => ?_⟩
  obtain ⟨m, hdata, hcells, hother⟩ := exists_placeData (hinv.hasMatrix hsize) cw
  have hbytes : s.mem.readBytes cwBase s.cwlen.toNat = some cw :=
    Memory.readBytes_eq_some.2 ⟨hlength, fun k hk => hread k (hlength ▸ hk)⟩
  have heffect := runMxdata_ok.2 ⟨cwlenInRange_iff.2 hrange, hsize, cw, hbytes, hdata⟩
  refine ⟨_, exec_next.2 (.inl ⟨_, heffect, rfl⟩), rfl, fun k cell hk => ?_, hother⟩
  rw [← getD_codewordBits]
  exact hcells k cell.1 cell.2 hk

end Sys2Proof.Machine
end

section
/-! PROOFS of the field laws: every byte but 0 is a power of α, so multiplication adds exponents and division subtracts them (R110, R114,
R115, R118). -/

namespace Sys2Proof.Machine

open Sys2Proof.Claims

/-! ### The field product -/

theorem fieldMul_comm (a b : Byte) : fieldMul a b = fieldMul b a := by
  obtain rfl | ⟨i, rfl⟩ := eq_zero_or_eq_alpha a
  · rw [zero_fieldMul, fieldMul_zero]
  obtain rfl | ⟨j, rfl⟩ := eq_zero_or_eq_alpha b
  · rw [zero_fieldMul, fieldMul_zero]
  rw [← alpha_add, ← alpha_add, Nat.add_comm]

theorem fieldMul_assoc (a b c : Byte) : fieldMul (fieldMul a b) c = fieldMul a (fieldMul b c) := by
  rw [fieldMul_comm a b, fieldMul_right_comm, fieldMul_comm]

theorem one_fieldMul (a : Byte) : fieldMul 1#8 a = a := by rw [fieldMul_comm, fieldMul_one]

theorem alpha_ne_zero (i : Nat) : alpha i ≠ 0#8 := by
  rw [← expAt_mod]
  exact expAt_ne_zero (Nat.mod_lt i (by decide))

/-- There are no divisors of zero: a product of powers of α is a power of α. -/
theorem fieldMul_eq_zero_iff {a b : Byte} : fieldMul a b = 0#8 ↔ a = 0#8 ∨ b = 0#8 := by
  constructor
  · intro h
    obtain rfl | ⟨i, rfl⟩ := eq_zero_or_eq_alpha a
    · exact .inl rfl
    obtain rfl | ⟨j, rfl⟩ := eq_zero_or_eq_alpha b
    · exact .inr rfl
    rw [← alpha_add] at h
    exact absurd h (alpha_ne_zero _)
  · rintro (rfl | rfl)
    · exact zero_fieldMul b
    · exact fieldMul_zero a

/-- A factor that is not 0 cancels. -/
theorem fieldMul_right_cancel {q a b : Byte} (hb : b ≠ 0#8) (h : fieldMul q b = fieldMul a b) : q = a := by
  have hdifference : fieldMul (q ^^^ a) b = 0#8 := by rw [fieldMul_xor_left, h, BitVec.xor_self]
  exact BitVec.xor_eq_zero_iff.1 ((fieldMul_eq_zero_iff.1 hdifference).resolve_right hb)

/-! ### Division -/

/-- The tables' quotient times the divisor is the dividend (R115). -/
theorem exists_div_eq_some {a b : Byte} (hb : b ≠ 0#8) : ∃ q, GfRom.fixed.div a b = some q ∧ fieldMul q b = a := by
  by_cases ha : a = 0#8
  · exact ⟨0#8, by rw [GfRom.div, if_neg hb, if_pos ha], by rw [ha, zero_fieldMul]⟩
  · refine ⟨_, by rw [GfRom.div, if_neg hb, if_neg ha], ?_⟩
    have hlog : GfRom.fixed.logAt b ≤ 255 := Nat.le_of_lt_succ (BitVec.isLt _)
    calc fieldMul (GfRom.fixed.expAt ((GfRom.fixed.logAt a + 255 - GfRom.fixed.logAt b) % 255)) b
      _ = fieldMul (alpha (GfRom.fixed.logAt a + 255 - GfRom.fixed.logAt b)) (alpha (GfRom.fixed.logAt b)) := by
        rw [expAt_mod, alpha_logAt hb]
      _ = alpha (GfRom.fixed.logAt a + 255) := by
        rw [← alpha_add, Nat.sub_add_cancel (by omega)]
      _ = a := by rw [alpha_periodic, alpha_logAt ha]

/-- The quotient is the one byte whose product with the divisor is the dividend (R115). -/
theorem div_eq_some_of_fieldMul {a b q : Byte} (hb : b ≠ 0#8) (hq : fieldMul q b = a) : GfRom.fixed.div a b = some q := by
  obtain ⟨q', hdiv, hq'⟩ := exists_div_eq_some (a := a) hb
  rw [hdiv, fieldMul_right_cancel hb (hq'.trans hq.symm)]

/-- Settles O14: the laws hold of the field product, which is what the tables compute. -/
theorem multiplyAndDivideObeyTheFieldLaws : Obligations.MultiplyAndDivideObeyTheFieldLaws := by
  refine ⟨fun a b c => ?_, fun i hi j hj => ?_⟩
  · simp only [mul_eq_fieldMul]
    refine ⟨fieldMul_comm a b, fieldMul_assoc a b c, fieldMul_xor_right a b c, one_fieldMul a, fieldMul_eq_zero_iff,
      fun hb => ?_⟩
    obtain ⟨q, hdiv, hq⟩ := exists_div_eq_some (a := a) hb
    exact ⟨q, hdiv, hq, div_eq_some_of_fieldMul hb rfl⟩
  · rw [mul_eq_fieldMul, expAt_mod, alpha_add, expAt_eq_alpha hi, expAt_eq_alpha hj]

theorem gfdiv_commandForm : CommandForm 0x02#8 true true .gfdiv := by
  refine commandForm_of_decode_maskAB fun w hopc => ?_
  rw [decode, hopc]
  rfl

/-- Settles O16: the rule's quotient is the one that R115 fixes, and a divisor 0 is refused before the dividend is looked at. -/
theorem gfdivIsTheFieldQuotient : Obligations.GfdivIsTheFieldQuotient := by
  refine ⟨gfdiv_commandForm, fun a b q s hrom hb hq => ?_, fun a b hb => ?_, fun a s => ?_⟩
  · have hdiv : s.rom.div a b = some q := hrom ▸ div_eq_some_of_fieldMul hb hq
    exact exec_next.2 (.inl ⟨_, runGfdiv_ok.2 ⟨q, hdiv, rfl⟩, rfl⟩)
  · obtain ⟨q, -, hq⟩ := exists_div_eq_some (a := a) hb
    exact ⟨q, hq⟩
  · have heffect : effect (.gfdiv a 0#8) s = .error (.err .domain) := by
      simp only [effect, runGfdiv, div_eq_none.2]
    exact exec_next.2 (.inr ⟨.domain, heffect, by rw [← assemble_zero_right]; rfl⟩)

end Sys2Proof.Machine
end

section
/-! PROOFS of the Reed–Solomon encoder: a round of R155 is linear in the register and the data, and adds a multiple of the generator to the
stream, so data and remainder together vanish where the generator does (R150 to R158). -/

namespace Sys2Proof.Machine

open Sys2Proof.Claims

/-! ### Exclusive or of polynomials -/

theorem xorPoly_xorPoly_comm (p q p' q' : List Byte) :
    xorPoly (xorPoly p q) (xorPoly p' q') = xorPoly (xorPoly p p') (xorPoly q q') := by
  refine List.ext_getElem (by simp only [xorPoly_length]; omega) fun i _ _ => ?_
  simp only [xorPoly, List.getElem_zipWith]
  ac_rfl

theorem xorPoly_append {p q p' q' : List Byte} (h : p.length = p'.length) :
    xorPoly (p ++ q) (p' ++ q') = xorPoly p p' ++ xorPoly q q' := List.zipWith_append h

/-- Adding a polynomial twice leaves the other one. -/
theorem xorPoly_xorPoly_cancel {p q : List Byte} (h : p.length = q.length) : xorPoly (xorPoly p q) p = q := by
  refine List.ext_getElem (by simp [h]) fun i _ _ => ?_
  simp only [xorPoly, List.getElem_zipWith]
  rw [BitVec.xor_comm, ← BitVec.xor_assoc, BitVec.xor_self, BitVec.zero_xor]

theorem scale_xor (c c' : Byte) (p : List Byte) :
    GfRom.fixed.scale (c ^^^ c') p = xorPoly (GfRom.fixed.scale c p) (GfRom.fixed.scale c' p) := by
  simp only [GfRom.scale, xorPoly, List.zipWith_map, List.zipWith_self, mul_eq_fieldMul, fieldMul_xor_right]

theorem headD_xorPoly {p q : List Byte} (h : p.length = q.length) : (xorPoly p q).headD 0#8 = p.headD 0#8 ^^^ q.headD 0#8 := by
  cases p with
  | nil =>
    obtain rfl := List.length_eq_zero_iff.1 h.symm
    rfl
  | cons a p =>
    cases q with
    | nil => cases h
    | cons b q => rfl

/-! ### The remainder is linear (R156) -/

/-- One round is additive in the register and the data codeword. -/
theorem divideStep_xor (g : List Byte) {rem rem' : List Byte} (h : rem.length = rem'.length) (x x' : Byte) :
    GfRom.fixed.divideStep g (xorPoly rem rem') (x ^^^ x') =
      xorPoly (GfRom.fixed.divideStep g rem x) (GfRom.fixed.divideStep g rem' x') := by
  have hshift : (xorPoly rem rem').drop 1 ++ [0#8] = xorPoly (rem.drop 1 ++ [0#8]) (rem'.drop 1 ++ [0#8]) := by
    rw [xorPoly_append (by simp [h])]
    exact congrArg (· ++ [0#8]) List.drop_zipWith
  have hfactor : x ^^^ x' ^^^ (xorPoly rem rem').headD 0#8 = (x ^^^ rem.headD 0#8) ^^^ (x' ^^^ rem'.headD 0#8) := by
    rw [headD_xorPoly h]
    ac_rfl
  simp only [GfRom.divideStep]
  rw [hshift, hfactor, scale_xor, xorPoly_xorPoly_comm]

theorem foldl_divideStep_xor (g : List Byte) {x y rem rem' : List Byte} (hxy : x.length = y.length)
    (hrem : rem.length = g.length - 1) (hrem' : rem'.length = g.length - 1) :
    (xorPoly x y).foldl (GfRom.fixed.divideStep g) (xorPoly rem rem') =
      xorPoly (x.foldl (GfRom.fixed.divideStep g) rem) (y.foldl (GfRom.fixed.divideStep g) rem') := by
  induction x generalizing y rem rem' with
  | nil =>
    obtain rfl := List.length_eq_zero_iff.1 hxy.symm
    rfl
  | cons a x ih =>
    cases y with
    | nil => cases hxy
    | cons b y =>
      have hhead : xorPoly (a :: x) (b :: y) = (a ^^^ b) :: xorPoly x y := rfl
      rw [hhead, List.foldl_cons, List.foldl_cons, List.foldl_cons, divideStep_xor g (hrem.trans hrem'.symm),
        ih (Nat.succ.inj hxy) (divideStep_length _ a hrem) (divideStep_length _ b hrem')]

theorem remainder_xor (g : List Byte) {x y : List Byte} (h : x.length = y.length) :
    GfRom.fixed.remainder (xorPoly x y) g = xorPoly (GfRom.fixed.remainder x g) (GfRom.fixed.remainder y g) := by
  have hzero : List.replicate (g.length - 1) 0#8 =
      xorPoly (List.replicate (g.length - 1) 0#8) (List.replicate (g.length - 1) 0#8) := by
    simp [xorPoly]
  rw [GfRom.remainder, hzero]
  exact foldl_divideStep_xor g h (by simp) (by simp)

theorem mul_zero (c : Byte) : GfRom.fixed.mul c 0#8 = 0#8 := by rw [mul_eq_fieldMul, fieldMul_zero]

theorem mul_xor (c x y : Byte) : GfRom.fixed.mul c (x ^^^ y) = GfRom.fixed.mul c x ^^^ GfRom.fixed.mul c y := by
  simp only [mul_eq_fieldMul, fieldMul_xor_right]

theorem map_mul_xorPoly (c : Byte) (p q : List Byte) :
    (xorPoly p q).map (GfRom.fixed.mul c) = xorPoly (p.map (GfRom.fixed.mul c)) (q.map (GfRom.fixed.mul c)) := by
  simp only [xorPoly, List.map_zipWith, List.zipWith_map, mul_xor]

theorem map_mul_scale (c f : Byte) (p : List Byte) :
    (GfRom.fixed.scale f p).map (GfRom.fixed.mul c) = GfRom.fixed.scale (GfRom.fixed.mul c f) p := by
  simp only [GfRom.scale, List.map_map, mul_eq_fieldMul]
  refine List.map_congr_left fun y _ => ?_
  calc GfRom.fixed.mul c (fieldMul y f)
    _ = fieldMul (fieldMul c y) f := by rw [mul_eq_fieldMul, fieldMul_assoc]
    _ = fieldMul y (fieldMul c f) := by rw [fieldMul_comm c y, fieldMul_assoc]

/-- One round is homogeneous in the register and the data codeword. -/
theorem divideStep_map_mul (g : List Byte) (c : Byte) (rem : List Byte) (x : Byte) :
    GfRom.fixed.divideStep g (rem.map (GfRom.fixed.mul c)) (GfRom.fixed.mul c x) =
      (GfRom.fixed.divideStep g rem x).map (GfRom.fixed.mul c) := by
  have hhead : (rem.map (GfRom.fixed.mul c)).headD 0#8 = GfRom.fixed.mul c (rem.headD 0#8) := by
    cases rem with
    | nil => exact (mul_zero c).symm
    | cons a rem => rfl
  simp only [GfRom.divideStep]
  rw [hhead, ← mul_xor, ← map_mul_scale, map_mul_xorPoly, List.map_append, List.map_drop, List.map_singleton, mul_zero]

theorem remainder_map_mul (g : List Byte) (c : Byte) (x : List Byte) :
    GfRom.fixed.remainder (x.map (GfRom.fixed.mul c)) g = (GfRom.fixed.remainder x g).map (GfRom.fixed.mul c) := by
  have hfold := List.foldl_hom (List.map (GfRom.fixed.mul c)) (g₁ := GfRom.fixed.divideStep g)
    (g₂ := fun rem y => GfRom.fixed.divideStep g rem (GfRom.fixed.mul c y)) (l := x)
    (init := List.replicate (g.length - 1) 0#8) fun rem y => divideStep_map_mul g c rem y
  rw [List.map_replicate, mul_zero] at hfold
  rw [GfRom.remainder, List.foldl_map]
  exact hfold

/-- Zero data are any data times 0. -/
theorem remainder_replicate_zero (g : List Byte) (k : Nat) :
    GfRom.fixed.remainder (List.replicate k 0#8) g = List.replicate (g.length - 1) 0#8 := by
  have hmap : ∀ l : List Byte, l.map (GfRom.fixed.mul 0#8) = List.replicate l.length 0#8 := fun l => by
    simp [List.eq_replicate_iff, mul_eq_fieldMul, zero_fieldMul]
  have h := remainder_map_mul g 0#8 (List.replicate k 0#8)
  rwa [hmap, hmap, List.length_replicate, remainder_length] at h

/-- Settles O22: each round of the division is additive and homogeneous, and the register has n bytes. -/
theorem remainderIsLinear : Obligations.RemainderIsLinear := by
  refine ⟨fun n x y h => ⟨remainder_xor _ h, ?_⟩, fun n c x => remainder_map_mul _ c x, fun x => ?_⟩
  · rw [remainder_replicate_zero, buildGen_length, Nat.add_sub_cancel]
  · exact List.length_eq_zero_iff.1 (remainder_buildGen_length _ x 0)

/-! ### Data and remainder vanish where the generator does (R153, R154) -/

/-- Horner's rule goes on from a value: the value of the coefficients so far. -/
def evalFrom (x acc : Byte) (p : List Byte) : Byte := p.foldl (fun acc c => fieldMul acc x ^^^ c) acc

theorem evalAt_append (x : Byte) (p q : List Byte) : evalAt x (p ++ q) = evalFrom x (evalAt x p) q := List.foldl_append

theorem evalFrom_xorPoly (x : Byte) {p q : List Byte} (h : p.length = q.length) (a b : Byte) :
    evalFrom x (a ^^^ b) (xorPoly p q) = evalFrom x a p ^^^ evalFrom x b q := by
  induction p generalizing q a b with
  | nil =>
    obtain rfl := List.length_eq_zero_iff.1 h.symm
    rfl
  | cons c p ih =>
    cases q with
    | nil => cases h
    | cons d q =>
      have hstep : fieldMul (a ^^^ b) x ^^^ (c ^^^ d) = (fieldMul a x ^^^ c) ^^^ (fieldMul b x ^^^ d) := by
        rw [fieldMul_xor_left]
        ac_rfl
      exact (congrArg (evalFrom x · (xorPoly p q)) hstep).trans (ih (Nat.succ.inj h) _ _)

/-- One round changes the register, shifted by the data codeword, by a multiple of the generator. -/
theorem xorPoly_cons_divideStep {t rem : List Byte} (h : rem.length = t.length) (x : Byte) :
    xorPoly (x :: GfRom.fixed.divideStep (1#8 :: t) rem x) (rem ++ [0#8]) =
      GfRom.fixed.scale (x ^^^ rem.headD 0#8) (1#8 :: t) := by
  have hone : ∀ f, GfRom.fixed.mul 1#8 f = f := fun f => by rw [mul_eq_fieldMul, one_fieldMul]
  cases rem with
  | nil =>
    obtain rfl := List.length_eq_zero_iff.1 h.symm
    simp [xorPoly, GfRom.divideStep, GfRom.scale, hone]
  | cons a rem =>
    have hlength : (rem ++ [0#8]).length = (GfRom.fixed.scale (x ^^^ a) t).length := by simpa using h
    have htail := xorPoly_xorPoly_cancel hlength
    simp only [GfRom.divideStep, List.tail_cons, List.headD_cons, List.drop_one, List.cons_append]
    change (x ^^^ a) :: xorPoly _ _ = GfRom.fixed.mul 1#8 (x ^^^ a) :: GfRom.fixed.scale (x ^^^ a) t
    rw [htail, hone]

theorem evalAt_replicate_zero (y : Byte) (k : Nat) : evalAt y (List.replicate k 0#8) = 0#8 := by
  induction k with
  | zero => rfl
  | succ k ih => rw [List.replicate_succ, evalAt_zero_cons, ih]

/-- The data followed by their remainder vanish at every zero of a monic generator (R153). -/
theorem evalAt_append_remainder {y : Byte} {t : List Byte} (hzero : evalAt y (1#8 :: t) = 0#8) (data : List Byte) :
    evalAt y (data ++ GfRom.fixed.remainder data (1#8 :: t)) = 0#8 := by
  induction data using List.reverseRecOn with
  | nil => exact evalAt_replicate_zero y _
  | append_singleton data x ih =>
    generalize hrem : GfRom.fixed.remainder data (1#8 :: t) = rem at ih
    have hlength : rem.length = t.length := by
      rw [← hrem, remainder_length]
      rfl
    have hround : GfRom.fixed.remainder (data ++ [x]) (1#8 :: t) = GfRom.fixed.divideStep (1#8 :: t) rem x := by
      rw [← hrem, GfRom.remainder, List.foldl_concat]
      rfl
    have hshift : evalFrom y (evalAt y data) (rem ++ [0#8]) = 0#8 := by
      rw [← evalAt_append, ← List.append_assoc, evalAt_append_zero, ih, zero_fieldMul]
    have hmultiple : evalFrom y 0#8 (GfRom.fixed.scale (x ^^^ rem.headD 0#8) (1#8 :: t)) = 0#8 := by
      have h := evalAt_scale y (x ^^^ rem.headD 0#8) (1#8 :: t)
      rwa [hzero, zero_fieldMul] at h
    have hsum := evalFrom_xorPoly y (p := x :: GfRom.fixed.divideStep (1#8 :: t) rem x) (q := rem ++ [0#8])
      (by rw [List.length_cons, divideStep_length _ x (by simpa using hlength)]; simp [hlength])
      (evalAt y data) (evalAt y data)
    rw [BitVec.xor_self, xorPoly_cons_divideStep hlength, hmultiple, hshift, BitVec.xor_zero] at hsum
    rw [hround, List.append_assoc, List.singleton_append, evalAt_append]
    exact hsum.symm

theorem rootProduct_alpha {i n : Nat} (hi : i < n) : rootProduct (alpha i) n = 0#8 := by
  induction n with
  | zero => exact absurd hi (Nat.not_lt_zero i)
  | succ n ih =>
    rw [rootProduct]
    rcases Nat.lt_succ_iff_lt_or_eq.1 hi with hlt | rfl
    · rw [ih hlt, zero_fieldMul]
    · rw [BitVec.xor_self, fieldMul_zero]

/-- The data followed by their error-correction codewords of degree n are a codeword: zero at the first n powers of α (R153). -/
theorem evalAt_alpha_codeword (data : List Byte) {n i : Nat} (hn : n ≤ 256) (hi : i < n) :
    evalAt (alpha i) (data ++ GfRom.fixed.remainder data (GfRom.fixed.buildGen n)) = 0#8 := by
  have hzero : evalAt (alpha i) (GfRom.fixed.buildGen n) = 0#8 := by rw [evalAt_buildGen _ hn, rootProduct_alpha hi]
  obtain ⟨t, ht⟩ : ∃ t, GfRom.fixed.buildGen n = 1#8 :: t := by
    have hhead := getElem?_zero_buildGen GfRom.fixed n
    cases hg : GfRom.fixed.buildGen n with
    | nil => simp [hg] at hhead
    | cons a t => exact ⟨t, by simpa [hg] using hhead⟩
  rw [ht] at hzero ⊢
  exact evalAt_append_remainder hzero data

/-! ### RSENC -/

theorem rsenc_commandForm : CommandForm 0x31#8 true true .rsenc := by
  refine commandForm_of_decode_maskAB fun w hopc => ?_
  rw [decode, hopc]
  rfl

section PutEc

variable (s : State) {d n : Nat} (data : List Byte)

/-- The error-correction codewords stand after the data in CW (R158). -/
theorem read_putEc {j : Nat} (hj : j < n) :
    (s.putEc d n data).mem.read (0x200 + d + j) = (s.rom.remainder data (s.rom.buildGen n))[j]? := by
  rw [State.putEc_mem, Memory.read_writeBytes, remainder_buildGen_length, cwBase, if_pos (by omega), Nat.add_sub_cancel_left]

theorem read_putEc_gen (hdn : d + n ≤ 256) {k : Nat} (hk : k ≤ n) :
    (s.putEc d n data).mem.read (0x300 + k) = (s.rom.buildGen n)[k]? := by
  rw [State.putEc_mem, Memory.read_writeBytes, remainder_buildGen_length, cwBase, if_neg (by omega)]
  exact read_putGen s n hk

theorem read_putEc_outside {a : Nat} (hcw : a < 0x200 + d ∨ 0x200 + d + n ≤ a) (hgen : a < 0x300 ∨ 0x300 + n < a) :
    (s.putEc d n data).mem.read a = s.mem.read a := by
  rw [State.putEc_mem, Memory.read_writeBytes, remainder_buildGen_length, cwBase, if_neg (by omega)]
  exact read_putGen_outside s n hgen

end PutEc

/-- Settles O21: RSENC reads its data before it writes, and writes the generator and the remainder. -/
theorem rsencMakesACodeword : Obligations.RsencMakesACodeword := by
  refine ⟨rsenc_commandForm, fun d n s data hn hdn hrom hlength hread => ?_⟩
  have hdata : s.mem.readBytes cwBase d.toNat = some data := Memory.readBytes_eq_some.2 ⟨hlength, hread⟩
  have heffect := runRsenc_ok.2 ⟨streamInRange_iff.2 ⟨hn, hdn⟩, data, hdata, rfl⟩
  refine ⟨_, s.rom.buildGen n.toNat, s.rom.remainder data (s.rom.buildGen n.toNat), exec_next.2 (.inl ⟨_, heffect, rfl⟩), rfl,
    remainder_buildGen_length .., fun j hj => read_putEc s data hj, fun i hi => ?_, buildGen_length .., getElem?_zero_buildGen ..,
    fun x => ?_, fun k hk => read_putEc_gen s data hdn hk, fun a hcw hgen => read_putEc_outside s data hcw hgen⟩
  · rw [hrom]
    exact evalAt_alpha_codeword data n.isLt.le hi
  · rw [hrom]
    exact evalAt_buildGen x n.isLt.le

end Sys2Proof.Machine
end

section
/-! PROOFS of DENC: the packed stream is the payload with its header shifted by half a byte, so its bytes are those of the closed form
(R140 to R145). -/

namespace Sys2Proof.Machine

open Sys2Proof.Claims

/-! ### Bytes of a bit sequence (R141) -/

theorem numberOfBits_lt (n : Nat) (bits : List Bool) : numberOfBits n bits < 2 ^ n := by
  induction n generalizing bits with
  | zero => exact Nat.one_pos
  | succ n ih =>
    cases bits with
    | nil => exact (ih []).trans (Nat.pow_lt_pow_succ one_lt_two)
    | cons b bits =>
      have := ih bits
      rw [numberOfBits, Nat.pow_succ]
      split <;> omega

/-- The first bit of the sequence is the most significant one. -/
theorem testBit_numberOfBits {n i : Nat} (hi : i < n) (bits : List Bool) :
    (numberOfBits n bits).testBit i = bits.getD (n - 1 - i) false := by
  induction n generalizing bits with
  | zero => exact absurd hi (Nat.not_lt_zero i)
  | succ n ih =>
    have hlt := numberOfBits_lt n
    cases bits with
    | nil =>
      rw [numberOfBits]
      rcases Nat.lt_succ_iff_lt_or_eq.1 hi with hin | rfl
      · rw [ih hin]
        rfl
      · exact Nat.testBit_lt_two_pow (hlt [])
    | cons b bits =>
      rw [numberOfBits]
      rcases Nat.lt_succ_iff_lt_or_eq.1 hi with hin | rfl
      · rw [show n + 1 - 1 - i = n - 1 - i + 1 by omega, List.getD_cons_succ, ← ih hin]
        cases b
        · rw [if_neg Bool.false_ne_true, Nat.zero_add]
        · rw [if_pos rfl, Nat.testBit_two_pow_add_gt hin]
      · rw [show i + 1 - 1 - i = 0 by omega, List.getD_cons_zero]
        cases b
        · rw [if_neg Bool.false_ne_true, Nat.zero_add, Nat.testBit_lt_two_pow (hlt bits)]
        · rw [if_pos rfl, Nat.testBit_two_pow_add_eq, Nat.testBit_lt_two_pow (hlt bits), Bool.not_false]

/-- Four bits and the next eight: the first byte takes the four and the high half of the eight. -/
theorem numberOfBits_nibble_byte (x b : Byte) (rest : List Bool) :
    BitVec.ofNat 8 (numberOfBits 8 (bitsMsbFirst 4 x.toNat ++ (bitsMsbFirst 8 b.toNat ++ rest))) =
      (x &&& 0x0F#8) <<< 4 ||| b >>> 4 := by
  refine BitVec.eq_of_getLsbD_eq fun i hi => ?_
  rw [BitVec.getLsbD_ofNat, testBit_numberOfBits hi]
  interval_cases i <;> simp [bitsMsbFirst, List.range_succ_eq_map, BitVec.testBit_toNat]

/-- The bytes of half a byte, whole bytes and the terminator: each takes a low half and the next high half. -/
theorem getElem?_packBytes_shifted (x : Byte) (bs : List Byte) {j : Nat} (hj : j ≤ bs.length) :
    (packBytes (bs.length + 1)
        (bitsMsbFirst 4 x.toNat ++ (bs.flatMap (fun b => bitsMsbFirst 8 b.toNat) ++ bitsMsbFirst 4 0)))[j]? =
      some (((x :: bs).getD j 0#8 &&& 0x0F#8) <<< 4 ||| (x :: bs).getD (j + 1) 0#8 >>> 4) := by
  induction bs generalizing x j with
  | nil =>
    obtain rfl : j = 0 := by simpa using hj
    exact congrArg some (numberOfBits_nibble_byte x 0#8 [])
  | cons b bs ih =>
    rw [List.flatMap_cons, List.append_assoc, List.length_cons, packBytes, numberOfBits_nibble_byte]
    cases j with
    | zero => rfl
    | succ j =>
      rw [List.getElem?_cons_succ]
      exact ih b (Nat.le_of_succ_le_succ hj)

/-! ### The data codewords (R143, R144) -/

theorem bitsMsbFirst_eight_mod (n : Nat) : bitsMsbFirst 8 n = bitsMsbFirst 8 (BitVec.ofNat 8 n).toNat := by
  refine List.map_congr_left fun k hk => ?_
  rw [BitVec.testBit_toNat, BitVec.getLsbD_ofNat]
  simp only [List.mem_range] at hk
  rw [decide_eq_true (by omega), Bool.true_and]

/-- The indicator 0100 is half a byte, and the count and the payload are whole bytes after it. -/
theorem packed_eq (p : List Byte) :
    packMsbFirst (streamBits p) = packBytes (p.length + 2) (bitsMsbFirst 4 (0x04#8).toNat ++
      ((BitVec.ofNat 8 p.length :: p).flatMap (fun b => bitsMsbFirst 8 b.toNat) ++ bitsMsbFirst 4 0)) := by
  rw [packMsbFirst, streamBits_length, show (8 * p.length + 16 + 7) / 8 = p.length + 2 by omega, List.flatMap_cons,
    ← bitsMsbFirst_eight_mod, streamBits]
  simp only [List.append_assoc]
  rfl

theorem getElem?_packed {p : List Byte} {j : Nat} (hj : j ≤ p.length + 1) :
    (packMsbFirst (streamBits p))[j]? = some (dataByte p j) := by
  rw [packed_eq]
  refine (getElem?_packBytes_shifted 0x04#8 (BitVec.ofNat 8 p.length :: p) hj).trans (congrArg some ?_)
  unfold dataByte
  split_ifs with h0 h1 hlast hend
  · subst h0
    exact congrArg (· ||| BitVec.ofNat 8 p.length >>> 4) (show (0x04#8 &&& 0x0F#8) <<< 4 = 0x40#8 by decide)
  · subst h1
    rfl
  · obtain ⟨k, rfl⟩ : ∃ k, j = k + 2 := ⟨j - 2, by omega⟩
    rfl
  · obtain ⟨k, rfl⟩ : ∃ k, j = k + 2 := ⟨j - 2, by omega⟩
    have hout : p.getD (k + 1) 0#8 = 0#8 := List.getD_eq_default _ _ (by omega)
    simp only [List.getD_cons_succ, hout]
    simp
  all_goals omega

/-- Data codeword j, in the packed stream or in the padding after it. -/
theorem getElem?_dataCodewords (p : List Byte) {d j : Nat} (hj : j < d) : (dataCodewords d p)[j]? = some (dataByte p j) := by
  rw [dataCodewords, List.getElem?_take_of_lt hj]
  by_cases hin : j ≤ p.length + 1
  · rw [List.getElem?_append_left (by rw [packed_length]; omega), getElem?_packed hin]
  · have hpad : (List.range (d - (p.length + 2)))[j - (p.length + 2)]? = some (j - (p.length + 2)) :=
      List.getElem?_range (by omega)
    rw [List.getElem?_append_right (by rw [packed_length]; omega), packed_length, List.getElem?_map, hpad, dataByte,
      if_neg (by omega), if_neg (by omega), if_neg (by omega), if_neg (by omega), ← Nat.sub_sub]
    rfl

theorem dataCodewords_eq_map (d : Nat) (p : List Byte) : dataCodewords d p = (List.range d).map (dataByte p) := by
  refine List.ext_getElem? fun j => ?_
  by_cases hj : j < d
  · rw [getElem?_dataCodewords p hj, List.getElem?_map, List.getElem?_range hj, Option.map_some]
  · simp [hj, dataCodewords_length]

/-! ### DENC -/

theorem denc_commandForm : CommandForm 0x20#8 false false (fun _ _ => .denc) := by
  refine commandForm_of_decode_maskN fun w hopc => ?_
  rw [decode, hopc]
  rfl

section PutData

variable (s : State) {d : Nat} (p : List Byte)

theorem read_putData {j : Nat} (hj : j < d) : (s.putData d p).mem.read (0x200 + j) = some (dataByte p j) := by
  rw [State.putData_mem, Memory.read_writeBytes, dataCodewords_length, cwBase, if_pos (by omega), Nat.add_sub_cancel_left,
    getElem?_dataCodewords p hj]

theorem read_putData_outside {a : Nat} (ha : a < 0x200 ∨ 0x200 + d ≤ a) : (s.putData d p).mem.read a = s.mem.read a := by
  rw [State.putData_mem, Memory.read_writeBytes, dataCodewords_length, cwBase, if_neg (by omega)]

end PutData

theorem payloadBytes_of_payloadIs {s : State} {p : List Byte} (h : PayloadIs s p) : s.payloadBytes = some p :=
  Memory.readBytes_eq_some.2 ⟨h.1, fun k hk => h.2 k (h.1 ▸ hk)⟩

/-- An accepted payload passes DENC's checks (R143, R145). -/
theorem effect_denc {s : State} {p : List Byte} (hv : 1 ≤ s.ver.toNat ∧ s.ver.toNat ≤ 5) (hp : PayloadIs s p)
    (haccepted : Accepted s.cfg.overflow p.length (dOf s.ver.toNat)) : effect .denc s = .ok (s.putData (dOf s.ver.toNat) p) := by
  obtain ⟨hlength, hfits⟩ := haccepted
  rw [hp.1, ← capacityOf_eq_dOf hv] at hfits
  rw [hp.1] at hlength
  rw [← capacityOf_eq_dOf hv]
  exact runDenc_ok.2 ⟨versionInRange_iff.2 hv, hlength, hfits, p, payloadBytes_of_payloadIs hp, rfl⟩

/-- Settles O19: an accepted payload passes DENC's checks, and what its rule writes are the data codewords. -/
theorem dencWritesTheClosedForm : Obligations.DencWritesTheClosedForm := by
  refine ⟨denc_commandForm, fun s p hlow hhigh hpayload haccepted => ?_⟩
  have heffect := effect_denc ⟨hlow, hhigh⟩ hpayload haccepted
  exact ⟨_, exec_next.2 (.inl ⟨_, heffect, rfl⟩), rfl, fun j hj => read_putData s p hj, fun a ha => read_putData_outside s p ha⟩

end Sys2Proof.Machine
end

section
/-! PROOFS of the frames: what a command's rule leaves as it is, register by register, byte by byte and cell by cell, and what it does not
read (R42, R48, R71). -/

namespace Sys2Proof.Machine

open Sys2Proof.Claims

/-! ### Registers -/

/-- `u` has the registers, bytes and planes of `s` that the row of the command `i` in the summary of writes does not name (R48). -/
structure KeepsUnlisted (i : Instr) (s u : State) : Prop where
  cfg : u.cfg = s.cfg
  ctrl : u.ctrl = s.ctrl
  len : u.len = s.len
  rom : u.rom = s.rom
  hostQ : u.hostQ = s.hostQ
  readLog : u.readLog = s.readLog
  left : u.left = s.left
  issued : u.issued = s.issued
  drop : u.status.drop = s.status.drop
  result : i.mnemonic ∉ ["GFMUL", "GFDIV", "FMTBITS", "PENALTY", "MSKSCORE"] → u.result = s.result
  ver : i.mnemonic ∉ ["VERFOR", "ENCODE"] → u.ver = s.ver
  cap : i.mnemonic ∉ ["CAPOF", "ENCODE"] → u.cap = s.cap
  cwlen : i.mnemonic ∉ ["DENC", "RSENC", "ENCODE"] → u.cwlen = s.cwlen
  mem : i.mnemonic ∉ ["DENC", "RSGEN", "RSENC", "ENCODE"] → u.mem = s.mem
  size : i.mnemonic ∉ ["MXINIT", "ENCODE"] → u.size = s.size
  planeM : i.mnemonic ∉ ["MXINIT", "MXFIND", "MXSEP", "MXTIME", "MXDARK", "MXFMT", "MXDATA", "MSKAPPLY", "ENCODE"] →
    u.planeM = s.planeM
  planeR : i.mnemonic ∉ ["MXINIT", "MXFIND", "MXSEP", "MXTIME", "MXDARK", "MXFMT", "ENCODE"] → u.planeR = s.planeR
  bitcnt : i.mnemonic ∉ ["MXDATA", "ENCODE"] → u.bitcnt = s.bitcnt
  fmt : i.mnemonic ∉ ["MXFMT", "ENCODE"] → u.fmt = s.fmt
  maskid : i.mnemonic ∉ ["MSKSEL", "ENCODE"] → u.maskid = s.maskid
  penaltyOf : i.mnemonic ∉ ["MSKSEL", "ENCODE"] → ∀ m < 8, i ≠ .mskscore (BitVec.ofNat 8 m) → u.penaltyOf m = s.penaltyOf m

section Registers

variable {i : Instr} {s u t : State}

theorem keepsUnlisted_refl (i : Instr) (s : State) : KeepsUnlisted i s s := by constructor <;> intros <;> rfl

/-- MSKSCORE m writes no entry of PENTAB but the one of m (R205). -/
theorem penaltyOf_putScore_of_ne {a : Byte} {m : Nat} (res : Plane × Nat) (h : Instr.mskscore a ≠ .mskscore (BitVec.ofNat 8 m)) :
    (s.putScore a.toNat res).penaltyOf m = s.penaltyOf m := by
  refine penaltyOf_putScore_other s res fun hm => h ?_
  rw [hm, BitVec.ofNat_toNat, BitVec.setWidth_eq]

/-- The rule of a command writes only registers that its row names. -/
theorem keepsUnlisted_effect (hu : effect i s = .ok u) : KeepsUnlisted i s u := by
  cases i
  case nop =>
    obtain rfl := runNop_ok.1 hu
    exact keepsUnlisted_refl _ _
  case mskscore =>
    obtain ⟨-, -, res, -, rfl⟩ := runMskscore_ok.1 hu
    constructor
    case penaltyOf => exact fun _ m _ hne => penaltyOf_putScore_of_ne res hne
    all_goals simp [Instr.mnemonic]
  all_goals simp only [effect, runGfmul_ok, runGfdiv_ok, runFmtbits_ok, runVerfor_ok, runCapof_ok, runDenc_ok, runRsgen_ok,
    runRsenc_ok, runMxinit_ok, runMxfind_ok, runMxsep_ok, runMxtime_ok, runMxdark_ok, runMxfmt_ok, runMxdata_ok, runMskapply_ok,
    runPenaltyCmd_ok, runMsksel_ok, runEncode_ok, State.placeData, State.maskMatrix, State.selectMask,
    Option.map_eq_some_iff, finishSymbol_eq_some] at hu
  case gfmul | verfor => subst hu; constructor <;> simp [Instr.mnemonic, State.penaltyOf]
  case fmtbits | capof | rsgen | mxinit | mxfind | mxsep | mxtime | mxdark =>
    obtain ⟨-, rfl⟩ := hu
    constructor <;> simp [Instr.mnemonic, State.penaltyOf]
  case gfdiv =>
    obtain ⟨q, -, rfl⟩ := hu
    constructor <;> simp [Instr.mnemonic, State.penaltyOf]
  case mxfmt =>
    obtain ⟨-, -, rfl⟩ := hu
    constructor <;> simp [Instr.mnemonic, State.penaltyOf]
  case rsenc | penalty | msksel =>
    obtain ⟨-, x, -, rfl⟩ := hu
    constructor <;> simp [Instr.mnemonic, State.penaltyOf]
  case mskapply =>
    obtain ⟨-, -, p, -, rfl⟩ := hu
    constructor <;> simp [Instr.mnemonic, State.penaltyOf]
  case denc =>
    obtain ⟨-, -, -, p, -, rfl⟩ := hu
    constructor <;> simp [Instr.mnemonic, State.penaltyOf]
  case mxdata =>
    obtain ⟨-, -, stream, -, res, -, rfl⟩ := hu
    constructor <;> simp [Instr.mnemonic, State.penaltyOf]
  case encode =>
    obtain ⟨-, -, -, p, -, s1, s2, s3, ⟨res, -, rfl⟩, ⟨results, -, rfl⟩, ⟨q, -, rfl⟩, rfl⟩ := hu
    constructor <;> simp [Instr.mnemonic]

/-- A completion and a reported error leave what the rule leaves, and STATUS.DROP. -/
theorem keepsUnlisted_exec (ht : exec i s = .next t) : KeepsUnlisted i s t := by
  obtain ⟨u, hu, rfl⟩ | ⟨c, -, rfl⟩ := exec_next.1 ht
  · exact { keepsUnlisted_effect hu with }
  · exact { keepsUnlisted_refl i s with }

end Registers

/-! ### Bytes -/

section Bytes

variable {i : Instr} {s u t : State}

theorem capacityOf_eq_nOf {v : Nat} (hv : 1 ≤ v ∧ v ≤ 5) : (capacityOf v).2 = nOf v := by
  obtain ⟨hlow, hhigh⟩ := hv
  interval_cases v <;> rfl

theorem mem_buildSymbol (s : State) (level v : Nat) (p : List Byte) :
    (s.buildSymbol level v p).mem = ((s.putData (capacityOf v).1 p).putEc (capacityOf v).1 (capacityOf v).2
      (dataCodewords (capacityOf v).1 p)).mem := by
  simp [State.buildSymbol]

theorem mem_of_finishSymbol {level : Nat} {stream : List Byte} (h : s.finishSymbol level stream = some u) : u.mem = s.mem := by
  obtain ⟨s1, s2, s3, hdata, hselect, hmask, rfl⟩ := finishSymbol_eq_some.1 h
  obtain ⟨res, -, rfl⟩ := Option.map_eq_some_iff.1 hdata
  obtain ⟨results, -, rfl⟩ := Option.map_eq_some_iff.1 hselect
  obtain ⟨p, -, rfl⟩ := Option.map_eq_some_iff.1 hmask
  simp

/-- ENCODE leaves every byte outside CW[0..d+n−1] and GEN[0..n] (R221). -/
theorem read_buildSymbol_outside (s : State) (level : Nat) (p : List Byte) {v a : Nat} (hv : 1 ≤ v ∧ v ≤ 5)
    (hcw : a < 0x200 ∨ 0x200 + dOf v + nOf v ≤ a) (hgen : a < 0x300 ∨ 0x300 + nOf v < a) :
    (s.buildSymbol level v p).mem.read a = s.mem.read a := by
  rw [← capacityOf_eq_dOf hv, ← capacityOf_eq_nOf hv] at hcw
  rw [← capacityOf_eq_nOf hv] at hgen
  rw [mem_buildSymbol, read_putEc_outside _ _ (by omega) hgen, read_putData_outside _ _ (by omega)]

/-- The rule of a command writes only bytes that its row names. -/
theorem read_mem_effect (hu : effect i s = .ok u) {a : Nat} (ha : ¬MayWriteByte i s a) : u.mem.read a = s.mem.read a := by
  cases i
  case denc =>
    obtain ⟨hv, -, -, p, -, rfl⟩ := runDenc_ok.1 hu
    rw [MayWriteByte, ← capacityOf_eq_dOf (versionInRange_iff.1 hv)] at ha
    exact read_putData_outside s p (by omega)
  case rsgen n =>
    obtain ⟨hn, rfl⟩ := runRsgen_ok.1 hu
    simp only [MayWriteByte, degreeInRange_iff.1 hn, true_and] at ha
    exact read_putGen_outside s _ (by omega)
  case rsenc d n =>
    obtain ⟨hrange, data, -, rfl⟩ := runRsenc_ok.1 hu
    obtain ⟨hn, hdn⟩ := streamInRange_iff.1 hrange
    have hn : n ≤ 32#8 := hn
    simp only [MayWriteByte, hn, hdn, true_and] at ha
    exact read_putEc_outside s data (by omega) (by omega)
  case encode =>
    obtain ⟨-, -, -, p, -, hfinish⟩ := runEncode_ok.1 hu
    simp only [MayWriteByte, ← versionFor_eq_versionOf] at ha
    rw [mem_of_finishSymbol hfinish]
    exact read_buildSymbol_outside s _ p (versionFor_range _) (by omega) (by omega)
  all_goals rw [(keepsUnlisted_effect hu).mem (by simp [Instr.mnemonic])]

theorem dOf_le (v : Nat) : dOf v ≤ 108 ∧ nOf v ≤ 26 := by
  have hentry : ∀ k ≤ 5, (capacities.getD k (0, 0)).1 ≤ 108 ∧ (capacities.getD k (0, 0)).2 ≤ 26 := by decide
  unfold dOf nOf
  rcases Nat.lt_or_ge (v - 1) 5 with h | h
  · exact hentry _ h.le
  · rw [List.getD_eq_default _ _ h]
    decide

/-- No command writes PAYLOAD or a byte above GEN (R48). -/
theorem inBounds_of_mayWriteByte {a : Nat} (h : MayWriteByte i s a) : 0x200 ≤ a ∧ a < 0x321 := by
  have hbyte : ∀ n : Byte, n ≤ 32#8 → n.toNat ≤ 32 := fun _ hn => hn
  cases i <;> simp only [MayWriteByte] at h
  case denc =>
    have := dOf_le s.ver.toNat
    omega
  case rsgen n =>
    have := hbyte n h.1
    omega
  case rsenc d n =>
    have := hbyte n h.1
    omega
  case encode =>
    have := dOf_le (versionOf s.len.toNat)
    omega

theorem read_mem_exec (ht : exec i s = .next t) {a : Nat} (ha : ¬MayWriteByte i s a) : t.mem.read a = s.mem.read a := by
  obtain ⟨u, hu, rfl⟩ | ⟨c, -, rfl⟩ := exec_next.1 ht
  · exact read_mem_effect hu ha
  · rfl

end Bytes

/-! ### Cells -/

section Cells

variable {i : Instr} {s u t : State} {r c : Nat}

/-- The rule of a command writes only modules that its own rule names. -/
theorem get_planeM_effect (hinv : s.Inv) (hu : effect i s = .ok u) (hout : ¬MayWriteModule i s r c) :
    u.planeM.get r c = s.planeM.get r c := by
  cases i
  case mxinit | encode => exact absurd trivial hout
  case mxfind =>
    obtain ⟨hsize, rfl⟩ := runMxfind_ok.1 hu
    exact (draws_finderWrites (hinv.le_side hsize)).get_setAll_outside _ hout
  case mxsep =>
    obtain ⟨hsize, rfl⟩ := runMxsep_ok.1 hu
    exact (draws_separatorCells (hinv.le_side hsize) false).get_setAll_outside _ hout
  case mxtime =>
    obtain ⟨hsize, rfl⟩ := runMxtime_ok.1 hu
    exact (draws_timingWrites (hinv.le_side hsize)).get_setAll_outside _ hout
  case mxdark =>
    obtain ⟨-, rfl⟩ := runMxdark_ok.1 hu
    exact Plane.get_set_other _ _ hout
  case mxfmt =>
    obtain ⟨-, hsize, rfl⟩ := runMxfmt_ok.1 hu
    exact (get_placeFormat_outside (hinv.le_side hsize) _ _ hout).1
  case mxdata =>
    obtain ⟨-, hsize, stream, -, hplace⟩ := runMxdata_ok.1 hu
    obtain ⟨m, hdata, -, hother⟩ := exists_placeData (hinv.hasMatrix hsize) stream
    obtain rfl := Option.some.inj (hplace.symm.trans hdata)
    exact hother r c hout
  case mskapply a =>
    obtain ⟨-, hsize, hmask⟩ := runMskapply_ok.1 hu
    obtain rfl := Option.some.inj (hmask.symm.trans (maskMatrix_eq hinv hsize a.toNat))
    exact (isMasked_build hinv.shapeM r c).2 hout
  all_goals rw [(keepsUnlisted_effect hu).planeM (by simp [Instr.mnemonic])]

/-- The rule of a command writes only reserved bits that its own rule names. -/
theorem get_planeR_effect (hinv : s.Inv) (hu : effect i s = .ok u) (hout : ¬MayWriteReserved i s r c) :
    u.planeR.get r c = s.planeR.get r c := by
  cases i
  case mxinit | encode => exact absurd trivial hout
  case mxfind =>
    obtain ⟨hsize, rfl⟩ := runMxfind_ok.1 hu
    exact (draws_allBoxCells (hinv.le_side hsize)).get_setAll_outside _ hout
  case mxsep =>
    obtain ⟨hsize, rfl⟩ := runMxsep_ok.1 hu
    exact (draws_separatorCells (hinv.le_side hsize) true).get_setAll_outside _ hout
  case mxtime =>
    obtain ⟨hsize, rfl⟩ := runMxtime_ok.1 hu
    exact (draws_timingWrites (hinv.le_side hsize)).reserveAll.get_setAll_outside _ hout
  case mxdark =>
    obtain ⟨-, rfl⟩ := runMxdark_ok.1 hu
    exact Plane.get_set_other _ _ hout
  case mxfmt =>
    obtain ⟨-, hsize, rfl⟩ := runMxfmt_ok.1 hu
    exact (get_placeFormat_outside (hinv.le_side hsize) _ _ hout).2
  all_goals rw [(keepsUnlisted_effect hu).planeR (by simp [Instr.mnemonic])]

theorem get_planes_exec (hinv : s.Inv) (ht : exec i s = .next t) :
    (¬MayWriteModule i s r c → t.planeM.get r c = s.planeM.get r c) ∧
      (¬MayWriteReserved i s r c → t.planeR.get r c = s.planeR.get r c) := by
  obtain ⟨u, hu, rfl⟩ | ⟨c, -, rfl⟩ := exec_next.1 ht
  · exact ⟨get_planeM_effect (u := u) hinv hu, get_planeR_effect (u := u) hinv hu⟩
  · exact ⟨fun _ => rfl, fun _ => rfl⟩

/-- Writes of 1 alone clear no bit. -/
theorem get_setAll_of_val_true {ws : List CellWrite} (hws : ∀ w ∈ ws, w.val = true) {p : Plane} (h : p.get r c = some true) :
    (p.setAll ws).get r c = some true := by
  induction ws generalizing p with
  | nil => exact h
  | cons w ws ih =>
    obtain ⟨hw, hws⟩ := List.forall_mem_cons.1 hws
    refine ih hws ?_
    rw [Plane.get_set, hw, h, ite_self]

theorem val_reserveAll (ws : List CellWrite) : ∀ w ∈ reserveAll ws, w.val = true := by simp [reserveAll]

theorem val_reserveBox (bs : List BoxCell) : ∀ w ∈ reserveBox bs true, w.val = true := by simp [reserveBox]

/-- The rule of a command other than MXINIT and ENCODE writes only 1 to R (R170). -/
theorem reserved_of_effect (hi : i.mnemonic ∉ ["MXINIT", "ENCODE"]) (hu : effect i s = .ok u)
    (h : s.planeR.get r c = some true) : u.planeR.get r c = some true := by
  cases i
  case mxinit | encode => simp [Instr.mnemonic] at hi
  case mxfind =>
    obtain ⟨-, rfl⟩ := runMxfind_ok.1 hu
    exact get_setAll_of_val_true (val_reserveBox _) h
  case mxsep =>
    obtain ⟨-, rfl⟩ := runMxsep_ok.1 hu
    exact get_setAll_of_val_true (val_reserveBox _) h
  case mxtime =>
    obtain ⟨-, rfl⟩ := runMxtime_ok.1 hu
    exact get_setAll_of_val_true (val_reserveAll _) h
  case mxdark =>
    obtain ⟨-, rfl⟩ := runMxdark_ok.1 hu
    rw [State.placeDark_planeR, Plane.get_set, h, ite_self]
  case mxfmt =>
    obtain ⟨-, -, rfl⟩ := runMxfmt_ok.1 hu
    rw [State.placeFormat_planeR]
    exact get_setAll_of_val_true (val_reserveAll _) h
  all_goals rwa [(keepsUnlisted_effect hu).planeR (by simp [Instr.mnemonic])]

end Cells

/-- Settles O10: the registers by the command's row, the bytes and the cells by what its rule may write. -/
theorem commandsWriteOnlyWhatTheTableLists : Obligations.CommandsWriteOnlyWhatTheTableLists := by
  intro i s t ht
  have h := keepsUnlisted_exec ht
  refine ⟨⟨h.cfg, h.ctrl, h.len, h.rom, h.hostQ, h.readLog, h.left, h.issued, h.drop⟩, h.result, h.ver, h.cap, h.cwlen,
    fun a => read_mem_exec ht, fun a ha => read_mem_exec ht fun hmay => ?_, h.size, fun hi r c => ?_, fun hi r c => ?_,
    fun hinv r c => get_planes_exec hinv ht, h.bitcnt, h.fmt, fun hi => ⟨h.maskid hi, h.penaltyOf hi⟩⟩
  · have := inBounds_of_mayWriteByte hmay
    omega
  · rw [h.planeM hi]
  · rw [h.planeR hi]

/-- Settles O32: placements only set reserved bits, and a reserved cell is neither a data cell nor one that a mask inverts. -/
theorem reservedCellsStayReserved : Obligations.ReservedCellsStayReserved := by
  intro i s t r c hinv hi ht hreserved
  refine ⟨?_, fun hplaces => (get_planes_exec hinv ht).1 fun hmay => ?_⟩
  · obtain ⟨u, hu, rfl⟩ | ⟨c, -, rfl⟩ := exec_next.1 ht
    · exact reserved_of_effect (u := u) hi hu hreserved
    · exact hreserved
  · cases i <;> simp [Instr.mnemonic] at hplaces
    case mxdata => simp [MayWriteModule, dataCells, hreserved] at hmay
    case mskapply => simp [MayWriteModule, hreserved] at hmay

end Sys2Proof.Machine
end

section
/-! PROOFS of what a command reads: neither CTRL nor the Host's side of the machine, and on an unwritten input byte the model stops (R23,
R46, R71, R233). -/

namespace Sys2Proof.Machine

open Sys2Proof.Claims

/-! ### What no rule reads: CTRL, STATUS, the pending word and the Host's side of the machine (R23, R71) -/

section Port

/-- The state with CTRL, STATUS, the pending word and the Host's side of another one: what no rule of a command reads or writes. -/
def State.withPortOf (s w : State) : State :=
  { s with
    ctrl := w.ctrl, status := w.status, pend := w.pend
    hostQ := w.hostQ, readLog := w.readLog, left := w.left, issued := w.issued }

/-- A rule's answer with the port of the state w. -/
def Result.withPortOf (r : Result) (w : State) : Result := r.map (·.withPortOf w)

section Checks

variable {w : State}

theorem needOperand_withPortOf {b : Bool} {r r' : Result} (h : r' = r.withPortOf w) :
    needOperand b r' = (needOperand b r).withPortOf w := by
  subst h
  cases b <;> rfl

theorem needMatrix_withPortOf {s : State} {r r' : Nat → Result} (h : ∀ side, r' side = (r side).withPortOf w) :
    needMatrix (s.withPortOf w) r' = (needMatrix s r).withPortOf w := by
  obtain rfl := funext h
  have hsame : (s.withPortOf w).size = s.size := rfl
  unfold needMatrix
  rw [hsame]
  split <;> rfl

theorem needCapacity_withPortOf {p : OverflowPolicy} {len d : Nat} {r r' : Result} (h : r' = r.withPortOf w) :
    needCapacity p len d r' = (needCapacity p len d r).withPortOf w := by
  subst h
  unfold needCapacity
  split
  · rfl
  · split <;> rfl

theorem whenWritten_withPortOf {α : Type} {x : Option α} {r r' : α → Result}
    (h : ∀ v, r' v = (r v).withPortOf w) : whenWritten x r' = (whenWritten x r).withPortOf w := by
  obtain rfl := funext h
  cases x <;> rfl

/-- A state that is answered only when its cells are written. -/
theorem whenWritten_map_withPortOf {x x' : Option State} (h : x' = x.map (·.withPortOf w)) :
    whenWritten x' .ok = (whenWritten x .ok).withPortOf w := by
  subst h
  cases x <;> rfl

end Checks

variable (s w : State)

theorem placeFormat_withPortOf (level m : Nat) :
    (s.withPortOf w).placeFormat level m = (s.placeFormat level m).withPortOf w := by
  simp only [State.placeFormat, State.withPortOf]

theorem buildSymbol_withPortOf (level v : Nat) (p : List Byte) :
    (s.withPortOf w).buildSymbol level v p = (s.buildSymbol level v p).withPortOf w := by
  simp only [State.buildSymbol, State.putData, State.putEc, State.putGen, State.initMatrix, State.placeFinders,
    State.placeSeparators, State.placeTiming, State.placeDark, State.placeFormat, State.withPortOf]

theorem placeData_withPortOf (stream : List Byte) :
    (s.withPortOf w).placeData stream = (s.placeData stream).map (·.withPortOf w) := by
  simp only [State.placeData, Option.map_map, Function.comp_def, State.withPortOf]

theorem maskMatrix_withPortOf (m : Nat) :
    (s.withPortOf w).maskMatrix m = (s.maskMatrix m).map (·.withPortOf w) := by
  simp only [State.maskMatrix, Option.map_map, Function.comp_def, State.withPortOf]

theorem selectMask_withPortOf :
    (s.withPortOf w).selectMask = s.selectMask.map (·.withPortOf w) := by
  have hscore : (s.withPortOf w).scoreAll = s.scoreAll := rfl
  rw [State.selectMask, hscore, State.selectMask, Option.map_map]
  rfl

theorem finishSymbol_withPortOf (level : Nat) (stream : List Byte) :
    (s.withPortOf w).finishSymbol level stream =
      (s.finishSymbol level stream).map (·.withPortOf w) := by
  have hid : ∀ u : State, (u.withPortOf w).maskid = u.maskid := fun _ => rfl
  simp only [State.finishSymbol, placeData_withPortOf, selectMask_withPortOf, maskMatrix_withPortOf, Option.bind_map,
    Option.map_bind, Option.map_map, Function.comp_def, hid, placeFormat_withPortOf]

/-- A rule answers the same with another port, which it leaves as it is. -/
theorem effect_withPortOf (i : Instr) :
    effect i (s.withPortOf w) = (effect i s).withPortOf w := by
  cases i
  case nop | gfmul | verfor => rfl
  case gfdiv a b =>
    simp only [effect, runGfdiv, State.withPortOf]
    cases s.rom.div a b <;> rfl
  case fmtbits | capof | rsgen | mxinit => exact needOperand_withPortOf rfl
  case denc => exact needOperand_withPortOf <| needCapacity_withPortOf <| whenWritten_withPortOf fun _ => rfl
  case rsenc => exact needOperand_withPortOf <| whenWritten_withPortOf fun _ => rfl
  case mxfind | mxsep | mxtime | mxdark =>
    simp only [effect, runMxfind, runMxsep, runMxtime, runMxdark]
    exact needMatrix_withPortOf fun _ => rfl
  case mxfmt =>
    exact needOperand_withPortOf <| needMatrix_withPortOf fun _ => congrArg Except.ok (placeFormat_withPortOf ..)
  case mxdata =>
    exact needOperand_withPortOf <| needMatrix_withPortOf fun _ => whenWritten_withPortOf fun _ =>
      whenWritten_map_withPortOf (placeData_withPortOf ..)
  case mskapply =>
    exact needOperand_withPortOf <| needMatrix_withPortOf fun _ => whenWritten_map_withPortOf (maskMatrix_withPortOf ..)
  case mskscore =>
    exact needOperand_withPortOf <| needMatrix_withPortOf fun _ => whenWritten_withPortOf fun _ => rfl
  case penalty =>
    simp only [effect, runPenaltyCmd]
    exact needMatrix_withPortOf fun _ => whenWritten_withPortOf fun _ => rfl
  case msksel =>
    simp only [effect, runMsksel]
    exact needMatrix_withPortOf fun _ => whenWritten_map_withPortOf (selectMask_withPortOf ..)
  case encode =>
    refine needOperand_withPortOf <| needCapacity_withPortOf <| whenWritten_withPortOf fun _ =>
      whenWritten_map_withPortOf ?_
    rw [buildSymbol_withPortOf]
    exact finishSymbol_withPortOf ..

end Port

/-- What a rule answers has the port of the state it started from. -/
theorem withPortOf_of_effect {i : Instr} {s u : State} (h : effect i s = .ok u) : u.withPortOf s = u := by
  have hport : effect i s = (effect i s).withPortOf s := effect_withPortOf s s i
  rw [h] at hport
  exact (Except.ok.inj hport).symm

/-- Settles O11: the rule commutes with a change of the Host's side, and so does its completion. -/
theorem commandsIgnoreCtrlAndHostRecord : Obligations.CommandsIgnoreCtrlAndHostRecord := by
  intro i s t c q l n k ht
  have heffect := effect_withPortOf s { s with ctrl := c, hostQ := q, readLog := l, left := n, issued := k } i
  obtain ⟨u, hu, rfl⟩ | ⟨e, he, rfl⟩ := exec_next.1 ht
  · rw [hu] at heffect
    rw [← withPortOf_of_effect hu]
    exact exec_next.2 (.inl ⟨_, heffect, rfl⟩)
  · rw [he] at heffect
    exact exec_next.2 (.inr ⟨e, heffect, rfl⟩)

/-- A command does not look at the completion of the one before it (R232). -/
theorem exec_complete (i : Instr) (s : State) : exec i s.complete = exec i s := by
  have heffect : effect i s.complete = (effect i s).withPortOf s.complete := effect_withPortOf s s.complete i
  rw [exec_eq_finish, exec_eq_finish, heffect]
  cases hu : effect i s with
  | ok u =>
    rw [← withPortOf_of_effect hu]
    rfl
  | error e => cases e <;> rfl

/-! ### Unwritten inputs (R46, R233) -/

section Unwritten

variable {s : State} {f : Fault}

/-- A read that meets an unwritten byte has no value. -/
theorem readBytes_eq_none {m : Memory} {a n k : Nat} (hk : k < n) (h : m.read (a + k) = none) : m.readBytes a n = none := by
  rw [← Option.not_isSome_iff_eq_none, Memory.readBytes, allPresent_isSome]
  exact fun hall => by simpa [h] using hall _ (List.mem_map_of_mem (List.mem_range.2 hk))

theorem needOperand_of_inRange {b : Bool} (h : b = true) (k : Result) : needOperand b k = k := if_pos h

theorem needMatrix_of_matrix (h : s.size ≠ 0#6) (k : Nat → Result) : needMatrix s k = k s.size.toNat := if_neg h

theorem needCapacity_of_accepted {p : OverflowPolicy} {len d : Nat} (h : Accepted p len d) (k : Result) :
    needCapacity p len d k = k := by
  obtain ⟨hlength, hfits⟩ := h
  rw [needCapacity, if_neg (by omega), if_neg]
  rintro ⟨hlong, rfl⟩
  rcases hfits with hfits | hfits
  · omega
  · cases hfits

/-- A version that fits is not above the smallest that fits. -/
theorem le_of_isVersionFor {L v w : Nat} (hv : IsVersionFor L v) (hw : IsVersionFor L w) : w ≤ v := by
  by_contra hlt
  obtain ⟨hlow, -, -, hfits⟩ := hv
  obtain ⟨-, hhigh, hbelow, -⟩ := hw
  have h1 := hbelow v hlow (by omega)
  have h2 := hfits (by omega)
  omega

theorem eq_versionFor_of_isVersionFor {L v : Nat} (h : IsVersionFor L v) : v = versionFor L :=
  le_antisymm (le_of_isVersionFor (isVersionFor_versionFor L) h) (le_of_isVersionFor h (isVersionFor_versionFor L))

/-- Settles O12: the checks pass, and the read of the input has no value. -/
theorem unwrittenInputStopsTheModel : Obligations.UnwrittenInputStopsTheModel := by
  refine ⟨fun s k hlow hhigh haccepted hk hread => ?_, fun d n s k hn hdn hk hread => ?_,
    fun s k hsize hrange hk hread => ?_, fun a s v k ha hv haccepted hk hread => ?_⟩
  · have hver : 1 ≤ s.ver.toNat ∧ s.ver.toNat ≤ 5 := ⟨hlow, hhigh⟩
    rw [← capacityOf_eq_dOf hver] at haccepted
    have hbytes : s.payloadBytes = none := readBytes_eq_none hk hread
    rw [exec_fault, effect, runDenc, needOperand_of_inRange (versionInRange_iff.2 hver), needCapacity_of_accepted haccepted, hbytes]
    rfl
  · rw [exec_fault, effect, runRsenc, needOperand_of_inRange (streamInRange_iff.2 ⟨hn, hdn⟩),
      readBytes_eq_none (a := cwBase) hk hread]
    rfl
  · rw [exec_fault, effect, runMxdata, needOperand_of_inRange (cwlenInRange_iff.2 hrange), needMatrix_of_matrix hsize,
      readBytes_eq_none (a := cwBase) hk hread]
    rfl
  · obtain rfl := eq_versionFor_of_isVersionFor hv
    rw [← capacityOf_eq_dOf (versionFor_range _)] at haccepted
    have hbytes : s.payloadBytes = none := readBytes_eq_none hk hread
    rw [exec_fault, effect, runEncode, needOperand_of_inRange (levelInRange_iff.2 ha), needCapacity_of_accepted haccepted, hbytes]
    rfl

theorem needOperand_fault {b : Bool} {k : Result} (h : needOperand b k = .error (.fault f)) : k = .error (.fault f) := by
  cases b
  · cases h
  · exact h

theorem needMatrix_fault {k : Nat → Result} (h : needMatrix s k = .error (.fault f)) :
    s.size ≠ 0#6 ∧ k s.size.toNat = .error (.fault f) := by
  unfold needMatrix at h
  split at h
  · cases h
  · exact ⟨‹_›, h⟩

/-- Settles O9: in a matrix that is written the masks and the scores have all their cells, and no other rule reads any. -/
theorem onlyFourCommandsMeetUnwrittenBytes : Obligations.OnlyFourCommandsMeetUnwrittenBytes := by
  intro i s f hinv hf
  have heffect := exec_fault.1 hf
  have hkeeps := keepsReport_effect i s
  rw [heffect] at hkeeps
  refine ⟨hkeeps, ?_⟩
  cases i
  case denc | rsenc | mxdata | encode => simp [Instr.mnemonic]
  case nop | gfmul | verfor => cases heffect
  case gfdiv a b =>
    simp only [effect, runGfdiv] at heffect
    split at heffect <;> cases heffect
  case fmtbits | capof | rsgen | mxinit => cases needOperand_fault heffect
  case mxfind | mxsep | mxtime | mxdark =>
    simp only [effect, runMxfind, runMxsep, runMxtime, runMxdark] at heffect
    cases (needMatrix_fault heffect).2
  case mxfmt => cases (needMatrix_fault (needOperand_fault heffect)).2
  case mskapply a =>
    obtain ⟨hsize, hread⟩ := needMatrix_fault (needOperand_fault heffect)
    rw [maskMatrix_eq hinv hsize] at hread
    cases hread
  case mskscore a =>
    obtain ⟨hsize, hread⟩ := needMatrix_fault (needOperand_fault heffect)
    rw [scoreMask_eq hinv hsize] at hread
    cases hread
  case penalty =>
    simp only [effect, runPenaltyCmd] at heffect
    obtain ⟨hsize, hread⟩ := needMatrix_fault heffect
    rw [penalty_eq_gridPoints (hinv.writtenM hsize) hinv.size.le_maxSize] at hread
    cases hread
  case msksel =>
    simp only [effect, runMsksel] at heffect
    obtain ⟨hsize, hread⟩ := needMatrix_fault heffect
    rw [selectMask_eq hinv hsize] at hread
    cases hread

end Unwritten

end Sys2Proof.Machine
end

section
/-! PROOFS of the order of commands: placements that draw different cells, or the same values, commute; drawing a second time changes
nothing; and a mask is its own inverse and leaves reserved cells (R189, R201, R266). -/

namespace Sys2Proof.Machine

open Sys2Proof.Claims

/-! ### Runs of commands -/

theorem execAll_cons {i : Instr} {is : List Instr} {s t : State} (h : exec i s = .next t) :
    execAll (i :: is) s = execAll is t := by
  rw [execAll, h]

theorem exec_of_effect {i : Instr} {s u : State} (h : effect i s = .ok u) : exec i s = .next u.complete :=
  exec_next.2 (.inl ⟨u, h, rfl⟩)

/-- A run does not look at the completion of the command before it. -/
theorem execAll_complete (i : Instr) (is : List Instr) (s : State) : execAll (i :: is) s.complete = execAll (i :: is) s := by
  rw [execAll, execAll, exec_complete]

theorem execAll_cons_of_effect {i j : Instr} {s u : State} (h : effect i s = .ok u) (is : List Instr) :
    execAll (i :: j :: is) s = execAll (j :: is) u := by
  rw [execAll_cons (exec_of_effect h), execAll_complete]

theorem execAll_singleton {i : Instr} {s u : State} (h : effect i s = .ok u) : execAll [i] s = some u.complete := by
  rw [execAll_cons (exec_of_effect h), execAll]

theorem execAll_two {i j : Instr} {s u v : State} (hi : effect i s = .ok u) (hj : effect j u = .ok v) :
    execAll [i, j] s = some v.complete := by
  rw [execAll_cons_of_effect hi, execAll_singleton hj]

/-! ### Two placements, and one placement twice -/

section TwoPlacements

variable {ws ws' : List CellWrite} {cells cells' : Nat → Nat → Prop} {value value' : Nat → Nat → Bool} {p : Plane}

/-- Placements commute when they agree on the cells they share. -/
theorem Draws.setAll_comm (h : Draws ws cells value) (h' : Draws ws' cells' value') (hp : p.wf) (hws : InPlane ws)
    (hws' : InPlane ws') (hagree : ∀ r c, cells r c → cells' r c → value r c = value' r c) :
    (p.setAll ws).setAll ws' = (p.setAll ws').setAll ws := by
  refine Plane.ext (Plane.setAll_wf (Plane.setAll_wf hp hws) hws') (Plane.setAll_wf (Plane.setAll_wf hp hws') hws)
    fun r _ c _ => ?_
  by_cases hin : cells r c
  · rw [h.get_setAll _ hin]
    by_cases hin' : cells' r c
    · rw [h'.get_setAll _ hin', hagree r c hin hin']
    · rw [h'.get_setAll_outside _ hin', h.get_setAll _ hin]
  · rw [h.get_setAll_outside _ hin]
    by_cases hin' : cells' r c
    · rw [h'.get_setAll _ hin', h'.get_setAll _ hin']
    · rw [h'.get_setAll_outside _ hin', h'.get_setAll_outside _ hin', h.get_setAll_outside _ hin]

/-- A placement whose cells hold their values already changes nothing. -/
theorem Draws.setAll_eq_self (h : Draws ws cells value) (hp : p.wf) (hws : InPlane ws)
    (hold : ∀ r c, cells r c → p.get r c = some (value r c)) : p.setAll ws = p := by
  refine Plane.ext (Plane.setAll_wf hp hws) hp fun r _ c _ => ?_
  by_cases hin : cells r c
  · rw [h.get_setAll _ hin, hold r c hin]
  · exact h.get_setAll_outside _ hin

end TwoPlacements

/-! ### The cells of the structure do not meet (R173 to R176) -/

section Disjoint

variable {side r c : Nat} (hside : 21 ≤ side)

include hside

theorem not_inTiming_of_inCorner {n : Nat} (hn : n ≤ 8) (h : InCorner n side r c) : ¬InTiming side r c := by
  unfold InCorner at h
  unfold InTiming
  omega

theorem not_dark_of_inCorner {n : Nat} (hn : n ≤ 8) (h : InCorner n side r c) : ¬(r = side - 8 ∧ c = 8) := by
  unfold InCorner at h
  omega

theorem not_dark_of_inTiming (h : InTiming side r c) : ¬(r = side - 8 ∧ c = 8) := by
  unfold InTiming at h
  omega

end Disjoint

/-! ### The structure twice (R189) -/

/-- The dark module's write (R176). -/
def darkWrites (side : Nat) : List CellWrite := [⟨side - 8, 8, true⟩]

theorem draws_darkWrites (side : Nat) : Draws (darkWrites side) (fun r c => r = side - 8 ∧ c = 8) (fun _ _ => true) where
  named r c := by simp [darkWrites, eq_comm]
  values := by simp [darkWrites]

theorem darkWrites_inPlane {side : Nat} (h : side ≤ maxSize) : InPlane (darkWrites side) := by
  intro w hw
  obtain rfl := List.mem_singleton.1 hw
  simp only [maxSize] at h ⊢
  omega

/-- Four placements in the order MXFIND, MXSEP, MXTIME, MXDARK. -/
def drawFour (finders separators timing dark : List CellWrite) (p : Plane) : Plane :=
  (((p.setAll finders).setAll separators).setAll timing).setAll dark

/-- The structure in M (R173 to R176). -/
def drawModules (side : Nat) : Plane → Plane :=
  drawFour (finderWrites side) (reserveBox (separatorCells side) false) (timingWrites side) (darkWrites side)

/-- The structure's cells in R. -/
def drawReserved (side : Nat) : Plane → Plane :=
  drawFour (reserveBox (allBoxCells side) true) (reserveBox (separatorCells side) true) (reserveAll (timingWrites side))
    (darkWrites side)

section Idempotent

variable {side : Nat} {p : Plane} (hside : 21 ≤ side) (hmax : side ≤ maxSize) (hp : p.wf)

include hside hmax hp

/-- After a first drawing every cell of the structure holds its module, so a second one changes none. -/
theorem drawModules_idempotent : drawModules side (drawModules side p) = drawModules side p := by
  have hfinders := draws_finderWrites hside
  have hseparators := draws_separatorCells hside false
  have htiming := draws_timingWrites hside
  have hdark := draws_darkWrites side
  have hwf : (drawModules side p).wf :=
    Plane.setAll_wf (Plane.setAll_wf (Plane.setAll_wf (Plane.setAll_wf hp (finderWrites_inPlane hmax))
      (separatorCells_inPlane hmax false)) (timingWrites_inPlane hmax)) (darkWrites_inPlane hmax)
  generalize hq : drawModules side p = q at hwf
  rw [drawModules, drawFour, hfinders.setAll_eq_self hwf (finderWrites_inPlane hmax),
    hseparators.setAll_eq_self hwf (separatorCells_inPlane hmax false),
    htiming.setAll_eq_self hwf (timingWrites_inPlane hmax), hdark.setAll_eq_self hwf (darkWrites_inPlane hmax)]
  all_goals
    intro r c hin
    rw [← hq, drawModules, drawFour]
  · exact hdark.get_setAll _ hin
  · rw [hdark.get_setAll_outside _ (not_dark_of_inTiming hside hin), htiming.get_setAll _ hin]
  · rw [hdark.get_setAll_outside _ (not_dark_of_inCorner hside le_rfl hin.1),
      htiming.get_setAll_outside _ (not_inTiming_of_inCorner hside le_rfl hin.1), hseparators.get_setAll _ hin]
  · rw [hdark.get_setAll_outside _ (not_dark_of_inCorner hside (by decide) hin),
      htiming.get_setAll_outside _ (not_inTiming_of_inCorner hside (by decide) hin),
      hseparators.get_setAll_outside _ fun h => h.2 hin, hfinders.get_setAll _ hin]

theorem drawReserved_idempotent : drawReserved side (drawReserved side p) = drawReserved side p := by
  have hfinders := draws_allBoxCells hside
  have hseparators := draws_separatorCells hside true
  have htiming := (draws_timingWrites hside).reserveAll
  have hdark := draws_darkWrites side
  have hwf : (drawReserved side p).wf :=
    Plane.setAll_wf (Plane.setAll_wf (Plane.setAll_wf (Plane.setAll_wf hp (allBoxCells_inPlane hmax true))
      (separatorCells_inPlane hmax true)) (reserveAll_inPlane (timingWrites_inPlane hmax))) (darkWrites_inPlane hmax)
  generalize hq : drawReserved side p = q at hwf
  rw [drawReserved, drawFour, hfinders.setAll_eq_self hwf (allBoxCells_inPlane hmax true),
    hseparators.setAll_eq_self hwf (separatorCells_inPlane hmax true),
    htiming.setAll_eq_self hwf (reserveAll_inPlane (timingWrites_inPlane hmax)),
    hdark.setAll_eq_self hwf (darkWrites_inPlane hmax)]
  all_goals
    intro r c hin
    rw [← hq, drawReserved, drawFour]
  · exact hdark.get_setAll _ hin
  · rw [hdark.get_setAll_outside _ (not_dark_of_inTiming hside hin), htiming.get_setAll _ hin]
  · rw [hdark.get_setAll_outside _ (not_dark_of_inCorner hside le_rfl hin.1),
      htiming.get_setAll_outside _ (not_inTiming_of_inCorner hside le_rfl hin.1), hseparators.get_setAll _ hin]
  · rw [hdark.get_setAll_outside _ (not_dark_of_inCorner hside le_rfl hin),
      htiming.get_setAll_outside _ (not_inTiming_of_inCorner hside le_rfl hin)]
    exact get_setAll_of_val_true (val_reserveBox _) (hfinders.get_setAll _ hin)

end Idempotent

/-- The four structure commands in a state with a matrix (R172 to R176). -/
def State.placeStructure (s : State) : State := s.placeFinders.placeSeparators.placeTiming.placeDark

section Exec

variable {s : State} (hsize : s.size ≠ 0#6)

include hsize

theorem effect_mxfind : effect .mxfind s = .ok s.placeFinders := runMxfind_ok.2 ⟨hsize, rfl⟩

theorem effect_mxsep : effect .mxsep s = .ok s.placeSeparators := runMxsep_ok.2 ⟨hsize, rfl⟩

theorem effect_mxtime : effect .mxtime s = .ok s.placeTiming := runMxtime_ok.2 ⟨hsize, rfl⟩

theorem effect_mxdark : effect .mxdark s = .ok s.placeDark := runMxdark_ok.2 ⟨hsize, rfl⟩

theorem effect_mxfmt {a b : Byte} (ha : a ≤ 3#8) (hb : b ≤ 7#8) :
    effect (.mxfmt a b) s = .ok (s.placeFormat a.toNat b.toNat) :=
  runMxfmt_ok.2 ⟨levelAndMaskInRange_iff.2 ⟨ha, hb⟩, hsize, rfl⟩

theorem execAll_structure (is : List Instr) :
    execAll (.mxfind :: .mxsep :: .mxtime :: .mxdark :: is) s = execAll is s.placeStructure.complete := by
  rw [execAll_cons_of_effect (effect_mxfind hsize), execAll_cons_of_effect (effect_mxsep (by simpa using hsize)),
    execAll_cons_of_effect (effect_mxtime (by simpa using hsize)),
    execAll_cons (exec_of_effect (effect_mxdark (by simpa using hsize)))]
  rfl

end Exec

theorem effect_mxinit {v : Byte} (hv : 1 ≤ v.toNat ∧ v.toNat ≤ 5) (s : State) :
    effect (.mxinit v) s = .ok (s.initMatrix v.toNat) :=
  runMxinit_ok.2 ⟨versionInRange_iff.2 hv, rfl⟩

theorem planes_placeStructure (s : State) :
    s.placeStructure.planeM = drawModules s.size.toNat s.planeM ∧
      s.placeStructure.planeR = drawReserved s.size.toNat s.planeR := by
  simp [State.placeStructure, drawModules, drawReserved, drawFour, darkWrites]

/-- Settles O33: in the matrix that MXINIT allocates the second drawing finds every cell of the structure as it is to be. -/
theorem structureIsIdempotent : Obligations.StructureIsIdempotent := by
  intro v s hlow hhigh
  have hv : 1 ≤ v.toNat ∧ v.toNat ≤ 5 := ⟨hlow, hhigh⟩
  obtain ⟨hlegal, hsize⟩ := legalSize_sideOf hv
  have hside : 21 ≤ (BitVec.ofNat 6 (sideOf v.toNat)).toNat := by
    have := hlegal.side hsize
    omega
  have hfirst : execAll [.mxinit v, .mxfind, .mxsep, .mxtime, .mxdark] s =
      some (s.initMatrix v.toNat).placeStructure.complete := by
    rw [execAll_cons_of_effect (effect_mxinit hv s), execAll_structure (by simpa using hsize), execAll]
  refine ⟨_, _, hfirst, execAll_structure (by simpa [State.placeStructure] using hsize) [], ?_, ?_⟩
  · simp only [State.complete_planeM, planes_placeStructure]
    simp only [State.placeStructure, State.complete_size, State.placeDark_size, State.placeTiming_size,
      State.placeSeparators_size, State.placeFinders_size, State.initMatrix_size, State.initMatrix_planeM]
    exact drawModules_idempotent hside hlegal.le_maxSize (Plane.fill_wf false)
  · simp only [State.complete_planeR, planes_placeStructure]
    simp only [State.placeStructure, State.complete_size, State.placeDark_size, State.placeTiming_size,
      State.placeSeparators_size, State.placeFinders_size, State.initMatrix_size, State.initMatrix_planeR]
    exact drawReserved_idempotent hside hlegal.le_maxSize (Plane.fill_wf false)

/-! ### Masks -/

/-- The state with mask m on M (R204). -/
def State.masked (s : State) (m : Nat) : State := { s with planeM := s.maskedCopy m }

section Masks

variable {s : State}

/-- With a matrix and a mask in range MSKAPPLY makes M its masked copy (R204). -/
theorem effect_mskapply (hinv : s.Inv) (hsize : s.size ≠ 0#6) {m : Byte} (hm : m ≤ 7#8) :
    effect (.mskapply m) s = .ok (s.masked m.toNat) :=
  runMskapply_ok.2 ⟨maskInRange_iff.2 hm, hsize, maskMatrix_eq hinv hsize m.toNat⟩

theorem get_maskedCopy (hinv : s.Inv) (m r c : Nat) :
    (s.maskedCopy m).get r c = maskedCell s.planeR s.planeM s.size.toNat m r c :=
  congrFun (congrFun (get_build_maskedCell hinv.shapeM) r) c

theorem maskedCell_congr {reserved reserved' x x' : Plane} {side m r c : Nat} (hr : reserved.get r c = reserved'.get r c)
    (hx : x.get r c = x'.get r c) : maskedCell reserved x side m r c = maskedCell reserved' x' side m r c := by
  simp only [maskedCell, hr, hx]

/-- Inverting a module twice restores it. -/
theorem maskedCell_involutive {reserved x y : Plane} {side m r c : Nat} (h : y.get r c = maskedCell reserved x side m r c) :
    maskedCell reserved y side m r c = x.get r c := by
  by_cases hin : r < side ∧ c < side ∧ reserved.get r c = some false ∧ Condition m r c
  · rw [maskedCell_inverted hin, h, maskedCell_inverted hin, Option.map_map]
    cases x.get r c <;> simp
  · rw [maskedCell_kept hin, h, maskedCell_kept hin]

theorem State.Inv.masked (hinv : s.Inv) (hsize : s.size ≠ 0#6) (m : Nat) : (s.masked m).Inv :=
  hinv.maskMatrix (maskMatrix_eq hinv hsize m)

theorem masked_masked (hinv : s.Inv) (hsize : s.size ≠ 0#6) (m : Nat) : (s.masked m).masked m = s := by
  have hrestored : (s.masked m).maskedCopy m = s.planeM :=
    Plane.ext (Plane.build_wf _) hinv.shapeM fun r _ c _ => by
      rw [get_maskedCopy (hinv.masked hsize m)]
      exact maskedCell_involutive (get_maskedCopy hinv m r c)
  rw [State.masked, hrestored]
  rfl

/-- Settles O36: the second mask inverts the cells that the first one inverted. -/
theorem maskingTwiceRestoresTheMatrix : Obligations.MaskingTwiceRestoresTheMatrix := by
  intro a s ha hinv hsize
  rw [execAll_two (effect_mskapply hinv hsize ha) (effect_mskapply (hinv.masked hsize _) hsize ha), masked_masked hinv hsize]
  rfl

/-- The modules of a format word are the same before and after a mask, which leaves their reserved cells (R266). -/
theorem maskedCopy_placeFormat (hinv : s.Inv) (hsize : s.size ≠ 0#6) (level mask m : Nat) :
    (s.placeFormat level mask).maskedCopy m = ((s.masked m).placeFormat level mask).planeM := by
  have hside := hinv.le_side hsize
  have hdraws := draws_fmtWrites s.cfg.bitOrder (fmtWord level mask) hside
  refine Plane.ext (Plane.build_wf _) ((hinv.masked hsize m).placeFormat hsize level mask).shapeM fun r _ c _ => ?_
  rw [get_maskedCopy (hinv.placeFormat hsize level mask)]
  by_cases hin : (r, c) ∈ copyOne ++ copyTwo s.size.toNat
  · rw [maskedCell_reserved (get_planeR_placeFormat hside level mask hin), State.placeFormat_planeM, State.placeFormat_planeM,
      hdraws.get_setAll _ hin]
    exact (hdraws.get_setAll _ hin).symm
  · obtain ⟨hM, hR⟩ := get_placeFormat_outside hside level mask hin
    obtain ⟨hM', -⟩ := get_placeFormat_outside (s := s.masked m) hside level mask hin
    rw [hM', State.placeFormat_size, maskedCell_congr hR hM]
    exact (get_maskedCopy hinv m r c).symm

theorem masked_placeFormat (hinv : s.Inv) (hsize : s.size ≠ 0#6) (level mask m : Nat) :
    (s.placeFormat level mask).masked m = (s.masked m).placeFormat level mask := by
  have hM := maskedCopy_placeFormat hinv hsize level mask m
  rw [State.placeFormat_planeM] at hM
  rw [State.masked, hM]
  simp only [State.placeFormat, State.masked]

end Masks

section Patterns

variable {s : State} (hinv : s.Inv) (hsize : s.size ≠ 0#6)

include hinv hsize

/-- Finders and margins do not meet in M, and reserve the same cells in R. -/
theorem placeFinders_placeSeparators : s.placeFinders.placeSeparators = s.placeSeparators.placeFinders := by
  have hside := hinv.le_side hsize
  have hmax := hinv.size.le_maxSize
  have hM := (draws_finderWrites hside).setAll_comm (draws_separatorCells hside false) hinv.shapeM (finderWrites_inPlane hmax)
    (separatorCells_inPlane hmax false) fun r c hin hout => absurd hin hout.2
  have hR := (draws_allBoxCells hside).setAll_comm (draws_separatorCells hside true) hinv.shapeR (allBoxCells_inPlane hmax true)
    (separatorCells_inPlane hmax true) fun _ _ _ _ => rfl
  simp only [State.placeFinders, State.placeSeparators, hM, hR]

theorem placeFinders_placeTiming : s.placeFinders.placeTiming = s.placeTiming.placeFinders := by
  have hside := hinv.le_side hsize
  have hmax := hinv.size.le_maxSize
  have hM := (draws_finderWrites hside).setAll_comm (draws_timingWrites hside) hinv.shapeM (finderWrites_inPlane hmax)
    (timingWrites_inPlane hmax) fun r c hin htiming => absurd htiming (not_inTiming_of_inCorner hside (by decide) hin)
  have hR := (draws_allBoxCells hside).setAll_comm (draws_timingWrites hside).reserveAll hinv.shapeR
    (allBoxCells_inPlane hmax true) (reserveAll_inPlane (timingWrites_inPlane hmax)) fun _ _ _ _ => rfl
  simp only [State.placeFinders, State.placeTiming, hM, hR]

theorem placeSeparators_placeTiming : s.placeSeparators.placeTiming = s.placeTiming.placeSeparators := by
  have hside := hinv.le_side hsize
  have hmax := hinv.size.le_maxSize
  have hM := (draws_separatorCells hside false).setAll_comm (draws_timingWrites hside) hinv.shapeM
    (separatorCells_inPlane hmax false) (timingWrites_inPlane hmax) fun r c hin htiming =>
      absurd htiming (not_inTiming_of_inCorner hside le_rfl hin.1)
  have hR := (draws_separatorCells hside true).setAll_comm (draws_timingWrites hside).reserveAll hinv.shapeR
    (separatorCells_inPlane hmax true) (reserveAll_inPlane (timingWrites_inPlane hmax)) fun _ _ _ _ => rfl
  simp only [State.placeSeparators, State.placeTiming, hM, hR]

end Patterns

/-- Settles O34: finders, margins and timing cells do not meet in M, in R each writes 1, and a mask leaves a format word's cells. -/
theorem patternsAndMasksCommute : Obligations.PatternsAndMasksCommute := by
  intro s hinv hsize
  refine ⟨⟨_, execAll_two (effect_mxfind hsize) (effect_mxsep (by simpa using hsize)), ?_⟩,
    ⟨_, execAll_two (effect_mxfind hsize) (effect_mxtime (by simpa using hsize)), ?_⟩,
    ⟨_, execAll_two (effect_mxsep hsize) (effect_mxtime (by simpa using hsize)), ?_⟩,
    fun a b m ha hb hm => ⟨_, execAll_two (effect_mxfmt hsize ha hb)
      (effect_mskapply (hinv.placeFormat hsize _ _) (by simpa using hsize) hm), ?_⟩⟩
  · rw [placeFinders_placeSeparators hinv hsize]
    exact execAll_two (effect_mxsep hsize) (effect_mxfind (by simpa using hsize))
  · rw [placeFinders_placeTiming hinv hsize]
    exact execAll_two (effect_mxtime hsize) (effect_mxfind (by simpa using hsize))
  · rw [placeSeparators_placeTiming hinv hsize]
    exact execAll_two (effect_mxtime hsize) (effect_mxsep (by simpa using hsize))
  · rw [masked_placeFormat hinv hsize]
    exact execAll_two (effect_mskapply hinv hsize hm) (effect_mxfmt (s := s.masked m.toNat) hsize ha hb)

end Sys2Proof.Machine
end

section
/-! PROOFS of the Host's port: what each place of the window answers while BUSY = 0, and what STATUS and ID answer at any time
(R22 to R37, R61 to R68). -/

namespace Sys2Proof.Machine

open Sys2Proof.Claims

/-! ### Values of registers as the Host reads them -/

/-- A field with zeros above it is the field in a wider register. -/
theorem zero_append {n k : Nat} (x : BitVec n) : 0#k ++ x = x.setWidth (k + n) := by
  refine BitVec.eq_of_toNat_eq ?_
  have hlt : x.toNat < 2 ^ (k + n) := x.isLt.trans_le (Nat.pow_le_pow_right (by decide) (Nat.le_add_left n k))
  rw [BitVec.toNat_append, BitVec.toNat_setWidth, Nat.mod_eq_of_lt hlt]
  simp

/-- STATUS bit by bit (R24), for every value of its flags. -/
theorem statusFlags_eq_append : ∀ (busy done err drop : Bool) (code : BitVec 4),
    flagBit busy 0 ||| flagBit done 1 ||| flagBit err 2 ||| flagBit drop 3 ||| (code.setWidth 32 <<< 8) =
      0#20 ++ code ++ 0#4 ++ BitVec.ofBool drop ++ BitVec.ofBool err ++ BitVec.ofBool done ++ BitVec.ofBool busy := by
  decide

theorem statusWord_eq_append (s : State) : s.statusWord =
    0#20 ++ s.status.errCode ++ 0#4 ++ BitVec.ofBool s.status.drop ++ BitVec.ofBool s.status.err ++
      BitVec.ofBool s.status.done ++ BitVec.ofBool s.pend.isSome :=
  statusFlags_eq_append ..

/-- CTRL reads back the two low bits of the value written (R23). -/
theorem toWord_ofWord (v : Word) : (Ctrl.ofWord v).toWord = v &&& 3#32 := by
  have htwo : ∀ x : BitVec 2, flagBit (x.getLsbD 0) 0 ||| flagBit (x.getLsbD 1) 1 = x.setWidth 32 := by decide
  have hlow : v &&& 3#32 = (v.setWidth 2).setWidth 32 := by
    refine BitVec.eq_of_toNat_eq ?_
    have hmod : v.toNat &&& 3 = v.toNat % 4 := Nat.and_two_pow_sub_one_eq_mod v.toNat 2
    simp only [BitVec.toNat_and, BitVec.toNat_ofNat, BitVec.toNat_setWidth, Nat.reducePow, Nat.reduceMod, hmod]
    omega
  rw [hlow, ← htwo]
  simp [Ctrl.ofWord, Ctrl.toWord]

/-! ### The places of the window -/

theorem registerAt_isSome_iff {off : Nat} : (registerAt off).isSome = true ↔ RegisterOffset off := by
  by_cases hoff : off < 0x60
  · have hall : ∀ o < 0x60, (registerAt o).isSome = true ↔ o % 4 = 0 ∧ (o < 0x38 ∨ (0x40 ≤ o ∧ o < 0x60)) := by decide
    exact hall off hoff
  · rw [registerAt_eq_none (by omega)]
    simp only [Option.isSome_none, Bool.false_eq_true, RegisterOffset, false_iff]
    omega

/-- The registers the Host may write lie at these offsets, whatever is written (R23 to R25, R28, R29, R31). -/
theorem writeReg_isSome_iff {s : State} {v : Word} {r : Reg} : (s.writeReg v r).isSome = true ↔
    r ∈ [Reg.ctrl, .status, .cmd, .len, .ver, .cwlen] := by
  cases r <;> simp [State.writeReg]

theorem readReg_isSome_iff {s : State} {r : Reg} : (s.readReg r).isSome = true ↔ r ≠ .cmd := by
  cases r <;> simp [State.readReg]

/-- Where the readable and the writable registers lie. -/
theorem registerAt_some_iff {off : Nat} :
    (∃ r, registerAt off = some r ∧ r ≠ .cmd) ↔ RegisterOffset off ∧ off ≠ 0x00C := by
  by_cases hoff : off < 0x60
  · have hall : ∀ o < 0x60, ((registerAt o).any (· ≠ .cmd)) = true ↔ (registerAt o).isSome = true ∧ o ≠ 0x00C := by decide
    rw [← registerAt_isSome_iff, ← hall off hoff]
    cases registerAt off <;> simp
  · rw [registerAt_eq_none (by omega)]
    simp only [reduceCtorEq, false_and, exists_false, RegisterOffset, false_iff]
    omega

theorem registerAt_writable_iff {off : Nat} :
    (∃ r, registerAt off = some r ∧ r ∈ [Reg.ctrl, .status, .cmd, .len, .ver, .cwlen]) ↔
      off = 0x004 ∨ off = 0x008 ∨ off = 0x00C ∨ off = 0x018 ∨ off = 0x01C ∨ off = 0x024 := by
  by_cases hoff : off < 0x60
  · have hall : ∀ o < 0x60, ((registerAt o).any (· ∈ [Reg.ctrl, .status, .cmd, .len, .ver, .cwlen])) = true ↔
        o = 0x004 ∨ o = 0x008 ∨ o = 0x00C ∨ o = 0x018 ∨ o = 0x01C ∨ o = 0x024 := by decide
    rw [← hall off hoff]
    cases registerAt off <;> simp
  · rw [registerAt_eq_none (by omega)]
    simp only [reduceCtorEq, false_and, exists_false, false_iff]
    omega

theorem byteOr_ne_badAccess (x : Option Byte) : byteOr x ≠ .error .badAccess := by
  cases x <;> simp [byteOr]

section Idle

variable {s : State} {off : Offset} {n : Width} {v : Word}

/-- With BUSY = 0 a read is BadAccess exactly when its offset and width name no place that answers. -/
theorem read_badAccess_iff (hs : s.pend = none) : s.hostAccess (.read off n) = .error .badAccess ↔
    ¬∃ q, placeAt off.toNat n = some q ∧ s.readPlace q ≠ .error .badAccess := by
  cases hq : placeAt off.toNat n with
  | none => simp [hostAccess_read_of_placeAt_none hs hq]
  | some q =>
    rw [hostAccess_read_of_placeAt hs hq]
    cases hr : s.readPlace q <;> simp [hr, Except.map]

theorem write_badAccess_iff (hs : s.pend = none) : s.hostAccess (.write off n v) = .error .badAccess ↔
    ¬∃ q, placeAt off.toNat n = some q ∧ s.writePlace v q ≠ .error .badAccess := by
  cases hq : placeAt off.toNat n with
  | none => simp [hostAccess_write_of_placeAt_none hs hq]
  | some q => simp [hostAccess_write_of_placeAt hs hq]

theorem readPlace_reg_ne_badAccess_iff {r : Reg} : s.readPlace (.reg r) ≠ .error .badAccess ↔ r ≠ .cmd := by
  rw [← readReg_isSome_iff (s := s), State.readPlace]
  cases s.readReg r <;> simp

theorem writePlace_reg_ne_badAccess_iff {r : Reg} : s.writePlace v (.reg r) ≠ .error .badAccess ↔
    r ∈ [Reg.ctrl, .status, .cmd, .len, .ver, .cwlen] := by
  rw [← writeReg_isSome_iff (s := s) (v := v), State.writePlace]
  cases s.writeReg v r <;> simp

theorem readPlace_mat_ne_badAccess_iff {r c : Nat} : s.readPlace (.mat r c) ≠ .error .badAccess ↔
    r < s.size.toNat ∧ c < s.size.toNat := by
  rw [State.readPlace, ← cellInMatrix_iff]
  cases s.cellInMatrix r c <;> simp [byteOr_ne_badAccess]

theorem writePlace_mat_ne_badAccess_iff {r c : Nat} : s.writePlace v (.mat r c) ≠ .error .badAccess ↔
    r < s.size.toNat ∧ c < s.size.toNat := by
  rw [State.writePlace, ← cellInMatrix_iff]
  cases s.cellInMatrix r c <;> simp

/-- The places that answer a read are the window map's (R61 to R64, R66). -/
theorem readAllowed_iff {off : Nat} : (∃ q, placeAt off n = some q ∧ s.readPlace q ≠ .error .badAccess) ↔
    ReadAllowed s.size.toNat off n := by
  cases n with
  | word =>
    simp only [placeAt, Option.map_eq_some_iff, ReadAllowed, reduceCtorEq, true_and, false_and, or_false]
    rw [← registerAt_some_iff]
    constructor
    · rintro ⟨-, ⟨r, hr, rfl⟩, hread⟩
      exact ⟨r, hr, readPlace_reg_ne_badAccess_iff.1 hread⟩
    · rintro ⟨r, hr, hcmd⟩
      exact ⟨_, ⟨r, hr, rfl⟩, readPlace_reg_ne_badAccess_iff.2 hcmd⟩
  | half => simp [placeAt, ReadAllowed]
  | byte =>
    simp only [placeAt_byte_eq_some, ReadAllowed, reduceCtorEq, true_and, false_and, false_or]
    constructor
    · rintro ⟨-, ⟨k, hk, rfl, rfl⟩ | ⟨k, hk, rfl, rfl⟩ | ⟨k, hk, rfl, rfl⟩ | ⟨r, hr, c, hc, rfl, rfl⟩, hread⟩
      · exact .inl ⟨by omega, by omega⟩
      · exact .inl ⟨by omega, by omega⟩
      · exact .inl ⟨by omega, by omega⟩
      · obtain ⟨hr', hc'⟩ := readPlace_mat_ne_badAccess_iff.1 hread
        exact .inr ⟨r, c, hr', hc', hr, hc, rfl⟩
    · rintro (⟨hlow, hhigh⟩ | ⟨r, c, hr', hc', hr, hc, rfl⟩)
      · by_cases hpayload : off < 0x200
        · exact ⟨_, .inl ⟨off - 0x100, by omega, by omega, rfl⟩, byteOr_ne_badAccess _⟩
        · by_cases hcw : off < 0x300
          · exact ⟨_, .inr (.inl ⟨off - 0x200, by omega, by omega, rfl⟩), byteOr_ne_badAccess _⟩
          · exact ⟨_, .inr (.inr (.inl ⟨off - 0x300, by omega, by omega, rfl⟩)), byteOr_ne_badAccess _⟩
      · exact ⟨_, .inr (.inr (.inr ⟨r, hr, c, hc, rfl, rfl⟩)), readPlace_mat_ne_badAccess_iff.2 ⟨hr', hc'⟩⟩

/-- The places that take a write are the window map's (R61 to R64, R66). -/
theorem writeAllowed_iff {off : Nat} : (∃ q, placeAt off n = some q ∧ s.writePlace v q ≠ .error .badAccess) ↔
    WriteAllowed s.size.toNat off n := by
  cases n with
  | word =>
    simp only [placeAt, Option.map_eq_some_iff, WriteAllowed, reduceCtorEq, true_and, false_and, or_false]
    rw [← registerAt_writable_iff]
    constructor
    · rintro ⟨-, ⟨r, hr, rfl⟩, hwrite⟩
      exact ⟨r, hr, writePlace_reg_ne_badAccess_iff.1 hwrite⟩
    · rintro ⟨r, hr, hmem⟩
      exact ⟨_, ⟨r, hr, rfl⟩, writePlace_reg_ne_badAccess_iff.2 hmem⟩
  | half => simp [placeAt, WriteAllowed]
  | byte =>
    simp only [placeAt_byte_eq_some, WriteAllowed, reduceCtorEq, true_and, false_and, false_or]
    constructor
    · rintro ⟨-, ⟨k, hk, rfl, rfl⟩ | ⟨k, hk, rfl, rfl⟩ | ⟨k, hk, rfl, rfl⟩ | ⟨r, hr, c, hc, rfl, rfl⟩, hwrite⟩
      · exact .inl ⟨by omega, by omega⟩
      · exact .inl ⟨by omega, by omega⟩
      · exact absurd rfl hwrite
      · obtain ⟨hr', hc'⟩ := writePlace_mat_ne_badAccess_iff.1 hwrite
        exact .inr ⟨r, c, hr', hc', hr, hc, rfl⟩
    · rintro (⟨hlow, hhigh⟩ | ⟨r, c, hr', hc', hr, hc, rfl⟩)
      · by_cases hpayload : off < 0x200
        · exact ⟨_, .inl ⟨off - 0x100, by omega, by omega, rfl⟩, by simp [State.writePlace]⟩
        · exact ⟨_, .inr (.inl ⟨off - 0x200, by omega, by omega, rfl⟩), by simp [State.writePlace]⟩
      · exact ⟨_, .inr (.inr (.inr ⟨r, hr, c, hc, rfl, rfl⟩)), writePlace_mat_ne_badAccess_iff.2 ⟨hr', hc'⟩⟩

end Idle

/-- Settles O45: the places that answer are those of the window map, and an access that names none of them is BadAccess. -/
theorem windowMapDecidesBadAccess : Obligations.WindowMapDecidesBadAccess := by
  intro s hs
  refine ⟨fun off n => ?_, fun off n v => ?_⟩
  · rw [read_badAccess_iff hs, readAllowed_iff]
  · rw [write_badAccess_iff hs, writeAllowed_iff]

/-! ### Reads and writes of registers -/

section Registers

variable {s : State} {off : Offset} {r : Reg}

/-- A read of a register that is allowed answers the register's value (R62). -/
theorem hostAccess_read_register {x : Word} (hallowed : s.pend = none ∨ allowedWhileBusy (.read off .word) = true)
    (hr : registerAt off.toNat = some r) (hx : s.readReg r = some x) :
    s.hostAccess (.read off .word) = .ok { s with readLog := x :: s.readLog } := by
  refine hostAccess_read_ok.2 ⟨fun hbusy => ?_, .reg r, x, by simp [placeAt, hr], by simp [State.readPlace, hx], rfl⟩
  obtain hidle | hallowed := hallowed
  · simp [State.busy, hidle] at hbusy
  · exact hallowed

/-- With BUSY = 0 a write of a writable register is its write (R62). -/
theorem hostAccess_write_register {v : Word} {t : State} (hidle : s.pend = none) (hr : registerAt off.toNat = some r)
    (ht : s.writeReg v r = some t) : s.hostAccess (.write off .word v) = .ok t :=
  hostAccess_write_ok.2 ⟨hidle, .reg r, by simp [placeAt, hr], by simp [State.writePlace, ht]⟩

theorem hostAccess_of_busy {a : Access} (hbusy : s.pend.isSome = true) (ha : allowedWhileBusy a = false) :
    s.hostAccess a = .error .busyAccess := by
  simp [State.hostAccess, State.busy, hbusy, ha]

end Registers

/-- Only the 32-bit reads of ID and STATUS are allowed while BUSY = 1 (R67). -/
theorem eq_of_allowedWhileBusy {a : Access} (ha : allowedWhileBusy a = true) :
    a = .read 0x008#13 .word ∨ a = .read 0x000#13 .word := by
  cases a with
  | write => cases ha
  | read off n =>
    cases n with
    | byte | half => cases ha
    | word =>
      have hlow : off.toNat < 0x60 := by
        by_contra hhigh
        rw [allowedWhileBusy, registerAt_eq_none (by omega)] at ha
        cases ha
      have hall : ∀ o < 0x60, (registerAt o == some .status || registerAt o == some .id) = true → o = 8 ∨ o = 0 := by decide
      obtain hoff | hoff := hall _ hlow ha
      · exact .inl (by rw [BitVec.eq_of_toNat_eq (y := 0x008#13) hoff])
      · exact .inr (by rw [BitVec.eq_of_toNat_eq (y := 0x000#13) hoff])

/-- Settles O44: the two reads answer their registers, and no other access is allowed while a command is pending. -/
theorem busyAllowsOnlyStatusAndId : Obligations.BusyAllowsOnlyStatusAndId := by
  intro s hbusy
  refine ⟨hostAccess_read_register (.inr rfl) rfl rfl, ?_, fun a ha => ?_⟩
  · rw [hostAccess_read_register (.inr rfl) rfl rfl, statusWord_eq_append, hbusy]
    rfl
  · exact hostAccess_of_busy hbusy (Bool.eq_false_iff.2 fun hallowed => ha (eq_of_allowedWhileBusy hallowed))

/-- A byte of a buffer is read at its window offset (R63). -/
theorem exists_bytePlace (s : State) {a : Nat} (hlow : 0x100 ≤ a) (hhigh : a ≤ 0x320) :
    ∃ q, placeAt a .byte = some q ∧ s.readPlace q = byteOr (s.mem.read a) := by
  by_cases hpayload : a < 0x200
  · obtain ⟨k, rfl⟩ := Nat.exists_eq_add_of_le hlow
    exact ⟨_, placeAt_payload (by omega), rfl⟩
  · by_cases hcw : a < 0x300
    · obtain ⟨k, rfl⟩ := Nat.exists_eq_add_of_le (not_lt.1 hpayload)
      exact ⟨_, placeAt_cw (by omega), rfl⟩
    · obtain ⟨k, rfl⟩ := Nat.exists_eq_add_of_le (not_lt.1 hcw)
      exact ⟨_, placeAt_gen (by omega), rfl⟩

/-- With BUSY = 0 a read of a buffer byte answers it, or is ReadUnwritten (R46, R63). -/
theorem hostAccess_read_byte {s : State} (hs : s.pend = none) {a : Nat} (hlow : 0x100 ≤ a) (hhigh : a ≤ 0x320) :
    s.hostAccess (.read (BitVec.ofNat 13 a) .byte) =
      match s.mem.read a with
      | some b => .ok { s with readLog := (0#24 ++ b) :: s.readLog }
      | none => .error .readUnwritten := by
  obtain ⟨q, hq, hread⟩ := exists_bytePlace s hlow hhigh
  have hoff : (BitVec.ofNat 13 a).toNat = a := by
    rw [BitVec.toNat_ofNat]
    omega
  rw [hostAccess_read_of_placeAt hs (hoff.symm ▸ hq), hread]
  cases s.mem.read a with
  | none => rfl
  | some b =>
    rw [byteOr, Except.map, ← zero_append (k := 24)]

/-- Settles O46: each readable register answers its value with zeros above its field, and each byte itself. -/
theorem readsReturnTheLocation : Obligations.ReadsReturnTheLocation := by
  intro s hs
  have hread : ∀ {off : Offset} {r : Reg} {x : Word}, registerAt off.toNat = some r → s.readReg r = some x →
      s.hostAccess (.read off .word) = .ok { s with readLog := x :: s.readLog } :=
    fun hr hx => hostAccess_read_register (.inl hs) hr hx
  have hpentab : ∀ m < 8, registerAt (BitVec.ofNat 13 (0x40 + 4 * m)).toNat = some (.pentab m) := by decide
  refine ⟨hread rfl rfl, hread rfl rfl, hread rfl rfl, hread rfl rfl, hread rfl rfl, ?_, hread rfl rfl, ?_, ?_, ?_, ?_,
    fun m hm => ?pentab, fun a hlow hhigh => hostAccess_read_byte hs hlow hhigh⟩
  case pentab =>
    rw [zero_append]
    exact hread (hpentab m hm) rfl
  all_goals
    rw [zero_append]
    exact hread rfl rfl

/-- Settles O47: STATUS is readable at any time, and its write clears by ones. -/
theorem statusReadsAndClearsByOne : Obligations.StatusReadsAndClearsByOne := by
  refine ⟨fun s => ?_, fun s v hs => hostAccess_write_register hs rfl rfl⟩
  rw [← statusWord_eq_append]
  exact hostAccess_read_register (.inr rfl) rfl rfl

/-- Settles O48: each write is the register's own, and CTRL keeps two bits. -/
theorem writableRegistersTakeTheValue : Obligations.WritableRegistersTakeTheValue := by
  intro s v hs
  refine ⟨hostAccess_write_register hs rfl rfl, hostAccess_write_register hs rfl rfl, hostAccess_write_register hs rfl rfl,
    _, hostAccess_write_register hs rfl rfl, rfl, ?_⟩
  rw [← toWord_ofWord]
  exact hostAccess_read_register (.inl hs) rfl rfl

/-- Settles O49: an idle block takes the word or, in error, drops it, and a busy one refuses the access. -/
theorem cmdWriteIssuesOrDrops : Obligations.CmdWriteIssuesOrDrops := by
  intro s w
  refine ⟨fun hs herr => ?_, fun hs herr => ?_, fun hbusy => hostAccess_of_busy hbusy rfl⟩
  · rw [hostAccess_write_register hs rfl rfl, State.writeCmd, herr]
    rfl
  · rw [hostAccess_write_register hs rfl rfl, State.writeCmd, herr]
    rfl

/-- Settles O50: the place at the offset is a byte of PAYLOAD or of CW, and its write is one write of memory. -/
theorem bufferWritesChangeOneByte : Obligations.BufferWritesChangeOneByte := by
  intro s a v hs hlow hhigh
  have hoff : (BitVec.ofNat 13 a).toNat = a := by
    rw [BitVec.toNat_ofNat]
    omega
  have hbyte : v.extractLsb' 0 8 = v.setWidth 8 := rfl
  have hwrite : ∃ q, placeAt a .byte = some q ∧ s.writePlace v q = .ok { s with mem := s.mem.write a (v.setWidth 8) } := by
    by_cases hpayload : a < 0x200
    · obtain ⟨k, rfl⟩ := Nat.exists_eq_add_of_le hlow
      exact ⟨_, placeAt_payload (by omega), rfl⟩
    · obtain ⟨k, rfl⟩ := Nat.exists_eq_add_of_le (not_lt.1 hpayload)
      exact ⟨_, placeAt_cw (by omega), rfl⟩
  obtain ⟨q, hq, ht⟩ := hwrite
  refine ⟨_, (hostAccess_write_of_placeAt hs (hoff.symm ▸ hq)).trans ht, rfl, ?_, fun x hx => ?_⟩
  · rw [hbyte]
    exact Memory.read_write_same ..
  · exact Memory.read_write_other _ _ hx

end Sys2Proof.Machine
end

section
/-! PROOFS of the step: whose turn it is, the latency of a pending command, IRQ and reset (R47, R232, R236, R260 to R264). -/

namespace Sys2Proof.Machine

open Sys2Proof.Claims

/-! ### Whose turn it is -/

section Turns

variable {s : State}

theorem step_of_engine {w : Word} (hpend : s.pend = some w) (hnow : s.hostQ = [] ∨ s.left = 0) : step s = engineStep w s := by
  rw [step, turn_engine.2 ⟨hpend, hnow⟩]

theorem step_of_host {e : HostEvent} {rest : List HostEvent} (hq : s.hostQ = e :: rest) (hturn : s.pend = none ∨ s.left ≠ 0) :
    step s = hostStep e rest s := by
  rw [step, turn_host.2 ⟨hq, hturn⟩]

theorem step_of_idle (hpend : s.pend = none) (hq : s.hostQ = []) : step s = .next s := by
  rw [step, turn_idle.2 ⟨hpend, hq⟩]

end Turns

theorem engineStep_of_decode {w : Word} {i : Instr} (h : decode w = .ok i) (s : State) : engineStep w s = exec i s := by
  rw [engineStep, h]

/-- Settles O6: a pending word with no event before it has the turn, and the Engine runs its command. -/
theorem stepRunsThePendingCommand : Obligations.StepRunsThePendingCommand := by
  intro s w i hpend hnow hdecode
  rw [step_of_engine hpend hnow.symm, engineStep_of_decode hdecode]

theorem decode_of_decodeTableWord {w : Nat} {i : Instr} (h : decodeTableWord 32 w = some i) :
    decode (BitVec.ofNat 32 (w % 2 ^ 32)) = .ok i := by
  rw [decodeTableWord, if_pos le_rfl] at h
  cases hdecode : decode (BitVec.ofNat 32 (w % 2 ^ 32)) with
  | error e =>
    rw [hdecode] at h
    cases h
  | ok j =>
    rw [hdecode] at h
    cases h
    rfl

/-- Settles O7: the table word is pending with no event before its step. -/
theorem fetchedTableWordRunsNext : Obligations.FetchedTableWordRunsNext := by
  intro s w i h
  exact stepRunsThePendingCommand _ _ i (State.withFetchWord_pend s 32 w) (.inl rfl) (decode_of_decodeTableWord h)

/-- Settles O54: the reset event has the turn, and only the parameters and the Host's side outlast it. -/
theorem platformResetDiscardsThePendingCommand : Obligations.PlatformResetDiscardsThePendingCommand := by
  intro s rest hq hturn
  rw [step_of_host hq hturn]
  rfl

/-- Settles O59: an event of the Host that has the turn is made by the step, and an idle block stays. -/
theorem stepMakesTheHostsEvent : Obligations.StepMakesTheHostsEvent := by
  refine ⟨fun s a rest hq hturn => ?_, fun s rest hq hidle => ?_, fun s rest hq hbusy hleft => ?_,
    fun s hq hidle => step_of_idle hidle hq⟩
  · have hstep : step s = hostStep (.access a) rest s := step_of_host hq hturn
    refine ⟨fun t ht => ?_, fun f hf => ?_⟩
    · rw [hstep, hostStep, State.takeEvent, ht]
    · rw [hstep, hostStep, State.takeEvent, hf]
  · rw [step_of_host hq (.inl hidle), hostStep, State.busy, if_neg (by simp [hidle]), State.takeEvent]
  · rw [step_of_host hq (.inr hleft), hostStep, State.busy, if_pos hbusy, State.takeEvent, ← hq]

/-! ### The `wait` loop (R99, R264) -/

/-- A run whose first step answers a next state goes on from it. -/
theorem run_succ_of_next {M : Host.Core} {s t : M.State} (h : M.step s = .next t) (n : Nat) : M.run (n + 1) s = M.run n t := by
  rw [Host.Core.run, h]

theorem run_one {M : Host.Core} (s : M.State) : M.run 1 s = M.step s := by
  rw [Host.Core.run]
  cases M.step s <;> rfl

theorem runSteps_succ_of_next {s t : State} (h : step s = .next t) (n : Nat) : runSteps (n + 1) s = runSteps n t :=
  run_succ_of_next (M := Sys2Proof.core) h n

theorem runSteps_one (s : State) : runSteps 1 s = step s := run_one (M := Sys2Proof.core) s

/-- Settles O55, by induction on the number of polls that still read BUSY = 1. -/
theorem waitLoopEndsInTheEngineStep : Obligations.WaitLoopEndsInTheEngineStep := by
  intro s w rest hpend hq
  induction hleft : s.left generalizing s with
  | zero =>
    have hnow : { s with left := 0 } = s := by rw [← hleft]
    rw [hnow, runSteps_one, step_of_engine hpend (.inr hleft)]
  | succ n ih =>
    have hpoll := stepMakesTheHostsEvent.2.2.1 s rest hq (by rw [hpend]; rfl) (by omega)
    rw [runSteps_succ_of_next hpoll]
    exact ih { s with left := s.left - 1 } hpend hq (by simp [hleft])

/-! ### IRQ (R47, R236) -/

/-- Every Engine step that answers sets DONE and leaves CTRL (R232). -/
theorem done_and_ctrl_of_engineStep {w : Word} {s t : State} (h : engineStep w s = .next t) :
    t.status.done = true ∧ t.ctrl = s.ctrl := by
  obtain ⟨i, -, hexec⟩ | ⟨e, -, rfl⟩ := engineStep_next.1 h
  · refine ⟨?_, (keepsUnlisted_exec hexec).ctrl⟩
    obtain ⟨u, -, rfl⟩ | ⟨c, -, rfl⟩ := exec_next.1 hexec
    · rfl
    · rfl
  · exact ⟨rfl, rfl⟩

theorem irq_iff (s : State) : s.irq = true ↔
    (s.status.done = true ∧ s.ctrl.ieDone = true) ∨ (s.status.err = true ∧ s.ctrl.ieErr = true) := by
  simp [State.irq]

/-- Settles O52: DONE is set by every Engine step, and the writes of CTRL and STATUS change the enables and the flags. -/
theorem irqFollowsDoneAndErr : Obligations.IrqFollowsDoneAndErr := by
  refine ⟨irq_iff, fun w s t h => ?_, fun s v hs => ⟨_, hostAccess_write_register hs rfl rfl, rfl⟩,
    fun s v hs => ⟨_, hostAccess_write_register hs rfl rfl, rfl⟩, fun s t h => ?_⟩
  · obtain ⟨hdone, hctrl⟩ := done_and_ctrl_of_engineStep h
    rw [irq_iff, hdone, hctrl]
    simp [and_comm]
  · obtain ⟨hidle, -⟩ := hostAccess_write_ok.1 h
    rw [hostAccess_write_register hidle rfl rfl] at h
    obtain rfl := Except.ok.inj h
    simp [State.irq, State.clearStatus, Status.writeOneToClear]

/-! ### Reset (R260, R261) -/

/-- Settles O53: the registers are read off the reset state, and the tables are those of R111 and R112. -/
theorem resetLeavesTheListedValues : Obligations.ResetLeavesTheListedValues := by
  have hbad : ∀ (off : Offset) (n : Width) (v : Word), 0x1000 ≤ off.toNat →
      State.reset.hostAccess (.read off n) = .error .badAccess ∧
        State.reset.hostAccess (.write off n v) = .error .badAccess := by
    intro off n v hoff
    obtain ⟨hread, hwrite⟩ := windowMapDecidesBadAccess State.reset rfl
    have hsize : State.reset.size.toNat = 0 := rfl
    rw [hread, hwrite, hsize]
    simp only [ReadAllowed, WriteAllowed, RegisterOffset, CellOffset, Nat.not_lt_zero, false_and, exists_false, and_false,
      or_false]
    omega
  refine ⟨rfl, rfl, rfl, by decide, by decide, fun _ => rfl,
    fun r c => ⟨Plane.get_unwritten r c, Plane.get_unwritten r c, Plane.get_unwritten r c⟩, fun i hi => ⟨?_, ?_⟩,
    ?_, logAt_zero, fun a hlow hhigh => hostAccess_read_byte rfl hlow hhigh, hbad⟩
  · exact expAt_eq_alpha hi.le
  · rw [← expAt_eq_alpha hi.le]
    exact logAt_expAt hi
  · exact expAt_255

end Sys2Proof.Machine
end

section
/-! PROOFS of the room in a symbol: with all fixed patterns drawn, each version's matrix has an unreserved cell for every bit of its
codewords, so that BITCNT counts them all (R130, R132, R186, R221). -/

namespace Sys2Proof.Machine

open Sys2Proof.Claims

/-! ### The cells of the fixed patterns outside column 6 -/

/-- The finders with their margins, the timing cells of row 6, and the format cells with the dark module, without column 6. -/
def fixedCells (side : Nat) : List (Nat × Nat) :=
  List.range 8 ×ˢ [0, 1, 2, 3, 4, 5, 7] ++ List.range 8 ×ˢ List.range' (side - 8) 8 ++
    List.range' (side - 8) 8 ×ˢ [0, 1, 2, 3, 4, 5, 7] ++ (List.range' 8 (side - 16)).map (fun c => (6, c)) ++
    (copyOne ++ copyTwo side)

theorem length_fixedCells (side : Nat) : (fixedCells side).length = 206 + (side - 16) := by
  simp only [fixedCells, List.length_append, List.length_product, List.length_range, List.length_range', List.length_map,
    copyOne, copyTwo, List.length_cons, List.length_nil]
  omega

section Fixed

variable {side r c : Nat}

theorem mem_fixedCells_of_inCorner (hside : 21 ≤ side) (hc : c ≠ 6) (h : InCorner 8 side r c) : (r, c) ∈ fixedCells side := by
  have hcolumn : c < 8 → c ∈ [0, 1, 2, 3, 4, 5, 7] := by
    intro hlt
    simp only [List.mem_cons, List.not_mem_nil, or_false]
    omega
  have hlast : ∀ x, side - 8 ≤ x ∧ x < side → x ∈ List.range' (side - 8) 8 := by
    intro x hx
    rw [List.mem_range'_1]
    omega
  simp only [fixedCells, List.mem_append]
  obtain ⟨hr, hlt⟩ | ⟨hr, hright⟩ | ⟨hlow, hhigh, hlt⟩ := h
  · exact .inl (.inl (.inl (.inl (List.pair_mem_product.2 ⟨List.mem_range.2 hr, hcolumn hlt⟩))))
  · exact .inl (.inl (.inl (.inr (List.pair_mem_product.2 ⟨List.mem_range.2 hr, hlast c hright⟩))))
  · exact .inl (.inl (.inr (List.pair_mem_product.2 ⟨hlast r ⟨hlow, hhigh⟩, hcolumn hlt⟩)))

theorem mem_fixedCells_of_inTiming (hc : c ≠ 6) (h : InTiming side r c) : (r, c) ∈ fixedCells side := by
  obtain ⟨rfl, hlow, hhigh⟩ | ⟨rfl, -⟩ := h
  · refine List.mem_append_left _ (List.mem_append_right _ (List.mem_map_of_mem ?_))
    rw [List.mem_range'_1]
    omega
  · exact absurd rfl hc

theorem mem_fixedCells_of_dark (h : r = side - 8 ∧ c = 8) : (r, c) ∈ fixedCells side := by
  obtain ⟨rfl, rfl⟩ := h
  simp [fixedCells, copyTwo]

end Fixed

/-! ### What ENCODE's first half draws -/

section Drawn

variable (s : State) (level v : Nat) (p : List Byte)

theorem planeM_buildSymbol : (s.buildSymbol level v p).planeM =
    (drawModules (BitVec.ofNat 6 (sideOf v)).toNat (Plane.fill false)).setAll
      (fmtWrites s.cfg.bitOrder (BitVec.ofNat 6 (sideOf v)).toNat (fmtWord level 0)) := by
  simp [State.buildSymbol, drawModules, drawFour, darkWrites]

theorem planeR_buildSymbol : (s.buildSymbol level v p).planeR =
    (drawReserved (BitVec.ofNat 6 (sideOf v)).toNat (Plane.fill false)).setAll
      (reserveAll (fmtWrites s.cfg.bitOrder (BitVec.ofNat 6 (sideOf v)).toNat (fmtWord level 0))) := by
  simp [State.buildSymbol, drawReserved, drawFour, darkWrites]

end Drawn

/-- A cell that no fixed pattern names stays unreserved. -/
theorem get_drawReserved_of_not_mem {side r c : Nat} (hside : 21 ≤ side) (hc : c ≠ 6) (hout : (r, c) ∉ fixedCells side)
    (p : Plane) : (drawReserved side p).get r c = p.get r c := by
  rw [drawReserved, drawFour,
    (draws_darkWrites side).get_setAll_outside _ fun h => hout (mem_fixedCells_of_dark h),
    (draws_timingWrites hside).reserveAll.get_setAll_outside _ fun h => hout (mem_fixedCells_of_inTiming hc h),
    (draws_separatorCells hside true).get_setAll_outside _ fun h => hout (mem_fixedCells_of_inCorner hside hc h.1),
    (draws_allBoxCells hside).get_setAll_outside _ fun h => hout (mem_fixedCells_of_inCorner hside hc h)]

theorem toNat_sideOf {v : Nat} (hv : 1 ≤ v ∧ v ≤ 5) : (BitVec.ofNat 6 (sideOf v)).toNat = 4 * v + 17 := by
  obtain ⟨hlow, hhigh⟩ := hv
  interval_cases v <;> rfl

/-- Every cell outside the fixed patterns and column 6 takes data. -/
theorem get_planeR_buildSymbol (s : State) (level : Nat) {v r c : Nat} (p : List Byte) (hv : 1 ≤ v ∧ v ≤ 5)
    (hr : r < 4 * v + 17) (hc : c < 4 * v + 17 ∧ c ≠ 6) (hout : (r, c) ∉ fixedCells (4 * v + 17)) :
    (s.buildSymbol level v p).planeR.get r c = some false := by
  have hside : 21 ≤ 4 * v + 17 := by omega
  have hformat : (r, c) ∉ copyOne ++ copyTwo (4 * v + 17) := fun h => hout (List.mem_append_right _ h)
  have hin : r < maxSize ∧ c < maxSize := by
    simp only [maxSize]
    omega
  rw [planeR_buildSymbol, toNat_sideOf hv, (draws_fmtWrites _ _ hside).reserveAll.get_setAll_outside _ hformat,
    get_drawReserved_of_not_mem hside hc.2 hout, Plane.get_fill, if_pos hin]

theorem length_cellOrder (side : Nat) : (cellOrder side).length = (side - 1) / 2 * (side * 2) := by
  simp [cellOrder, List.length_flatMap]

/-- The unreserved cells of each version's matrix are at least as many as the bits of its codewords (R130, R132). -/
theorem le_length_dataCells (s : State) (level : Nat) {v : Nat} (p : List Byte) (hv : 1 ≤ v ∧ v ≤ 5) :
    8 * (dOf v + nOf v) ≤ (dataCells (s.buildSymbol level v p).planeR (4 * v + 17)).length := by
  have hodd : (4 * v + 17) % 2 = 1 := by omega
  have hreserved : ∀ cell ∈ (cellOrder (4 * v + 17)).filter fun cell =>
      !((s.buildSymbol level v p).planeR.get cell.1 cell.2 == some false), cell ∈ fixedCells (4 * v + 17) := by
    rintro ⟨r, c⟩ hcell
    obtain ⟨horder, hget⟩ := List.mem_filter.1 hcell
    obtain ⟨hr, hc⟩ := (mem_cellOrder_iff hodd (by omega)).1 horder
    by_contra hout
    rw [get_planeR_buildSymbol s level p hv hr hc hout] at hget
    cases hget
  have hcount := (((nodup_cellOrder hodd (by omega)).filter _).subperm hreserved).length_le
  have hsplit := List.length_eq_length_filter_add (l := cellOrder (4 * v + 17))
    fun cell => (s.buildSymbol level v p).planeR.get cell.1 cell.2 == some false
  rw [length_fixedCells] at hcount
  rw [length_cellOrder] at hsplit
  have hroom : 8 * (dOf v + nOf v) + (206 + (4 * v + 17 - 16)) ≤ (4 * v + 17 - 1) / 2 * ((4 * v + 17) * 2) := by
    obtain ⟨hlow, hhigh⟩ := hv
    interval_cases v <;> decide
  unfold dataCells
  omega

end Sys2Proof.Machine
end

section
/-! PROOFS of ENCODE: on an accepted payload the pipeline completes, leaves what the single commands leave, and reads nothing but the
payload, the level and the parameters (R221 to R226). -/

namespace Sys2Proof.Machine

open Sys2Proof.Claims

/-! ### The second half, in any state with a matrix -/

/-- What MSKSEL scores: the eight masked copies with their penalties (R207). -/
def State.maskResults (s : State) : List (Plane × Nat) := (List.range 8).map fun m => (s.maskedCopy m, s.maskScore m)

/-- The mask that MSKSEL chooses. -/
def State.chosenMask (s : State) : BitVec 3 := (s.putSelection s.maskResults).maskid

/-- The end of ENCODE once the data is placed: the selection, the chosen mask on M, and the final format word (R221). -/
def State.sealed (s : State) (level : Nat) : State :=
  ((s.putSelection s.maskResults).masked s.chosenMask.toNat).placeFormat level s.chosenMask.toNat

section HasMatrix

variable {s u : State} (h : s.HasMatrix)

include h

/-- The matrix of the state in an otherwise empty block, which has the whole invariant. -/
theorem State.HasMatrix.inv :
    State.Inv { State.resetWith s.cfg with size := s.size, planeM := s.planeM, planeR := s.planeR } :=
  { inv_resetWith s.cfg with
    shapeM := h.shapeM, shapeR := h.shapeR, size := h.size, writtenM := fun _ => h.writtenM, writtenR := fun _ => h.writtenR }

theorem State.HasMatrix.maskMatrix_eq (m : Nat) : s.maskMatrix m = some (s.masked m) := by
  have hmask : applyMask s.planeR s.planeM s.size.toNat m = some (s.maskedCopy m) :=
    applyMask_eq_maskedCopy h.inv h.size_ne m
  rw [State.maskMatrix, hmask]
  rfl

theorem State.HasMatrix.selectMask_eq : s.selectMask = some (s.putSelection s.maskResults) := by
  have hall : s.scoreAll = some s.maskResults := by
    rw [scoreAll_eq_some, State.maskResults, List.map_map]
    exact List.map_congr_left fun m _ => scoreMask_eq h.inv h.size_ne m
  rw [State.selectMask, hall]
  rfl

theorem State.HasMatrix.placeData {stream : List Byte} (hu : s.placeData stream = some u) : u.HasMatrix := by
  obtain ⟨res, hplace, rfl⟩ := Option.map_eq_some_iff.1 hu
  have hin : ∀ cell ∈ zigzag s.size.toNat, cell.1 < maxSize ∧ cell.2 < maxSize := fun cell hcell =>
    have hlt := mem_zigzag_lt h.size hcell
    ⟨hlt.1.trans_le h.size.le_maxSize, hlt.2.trans_le h.size.le_maxSize⟩
  exact { h with shapeM := placeBits_wf hplace h.shapeM hin, writtenM := placeBits_allWritten hplace h.writtenM }

/-- The second half of ENCODE is the placement, then its end. -/
theorem finishSymbol_eq_sealed (level : Nat) {stream : List Byte} (hu : s.placeData stream = some u) :
    s.finishSymbol level stream = some (u.sealed level) := by
  have hmatrix : u.HasMatrix := h.placeData hu
  have hselected : (u.putSelection u.maskResults).HasMatrix := { hmatrix with }
  exact finishSymbol_eq_some.2 ⟨u, _, _, hu, hmatrix.selectMask_eq, hselected.maskMatrix_eq _, rfl⟩

end HasMatrix

section Chosen

variable (s : State)

@[simp] theorem State.sealed_cfg (level : Nat) : (s.sealed level).cfg = s.cfg := by simp [State.sealed, State.masked]
@[simp] theorem State.sealed_ver (level : Nat) : (s.sealed level).ver = s.ver := by simp [State.sealed, State.masked]
@[simp] theorem State.sealed_cap (level : Nat) : (s.sealed level).cap = s.cap := by simp [State.sealed, State.masked]
@[simp] theorem State.sealed_cwlen (level : Nat) : (s.sealed level).cwlen = s.cwlen := by simp [State.sealed, State.masked]
@[simp] theorem State.sealed_size (level : Nat) : (s.sealed level).size = s.size := by simp [State.sealed, State.masked]
@[simp] theorem State.sealed_bitcnt (level : Nat) : (s.sealed level).bitcnt = s.bitcnt := by simp [State.sealed, State.masked]
@[simp] theorem State.sealed_mem (level : Nat) : (s.sealed level).mem = s.mem := by simp [State.sealed, State.masked]

@[simp] theorem State.sealed_maskid (level : Nat) : (s.sealed level).maskid = s.chosenMask := by
  simp [State.sealed, State.masked, State.chosenMask]

@[simp] theorem State.sealed_fmt (level : Nat) : (s.sealed level).fmt = fmtWord level s.chosenMask.toNat := by
  simp [State.sealed]

@[simp] theorem State.sealed_pentab (level : Nat) :
    (s.sealed level).pentab = penaltyTable (s.maskResults.map Prod.snd) := by
  simp [State.sealed, State.masked]

/-- The final M is the chosen masked copy with the final format word. -/
theorem State.sealed_planeM (level : Nat) : (s.sealed level).planeM = (s.maskedCopy s.chosenMask.toNat).setAll
    (fmtWrites s.cfg.bitOrder s.size.toNat (fmtWord level s.chosenMask.toNat)) := by
  simp [State.sealed, State.masked, State.maskedCopy]

theorem State.sealed_planeR (level : Nat) : (s.sealed level).planeR = s.planeR.setAll
    (reserveAll (fmtWrites s.cfg.bitOrder s.size.toNat (fmtWord level s.chosenMask.toNat))) := by
  simp [State.sealed, State.masked]

theorem chosenMask_lt : s.chosenMask.toNat < 8 := s.chosenMask.isLt

theorem toNat_chosenMask_setWidth : (s.chosenMask.setWidth 8).toNat = s.chosenMask.toNat := by
  have := chosenMask_lt s
  rw [BitVec.toNat_setWidth]
  omega

theorem chosenMask_setWidth_le : s.chosenMask.setWidth 8 ≤ 7#8 := by
  have := chosenMask_lt s
  rw [BitVec.le_def, toNat_chosenMask_setWidth]
  exact Nat.le_of_lt_succ this

/-- The four single commands of the second half (R222). -/
theorem execAll_sealed {s u : State} (h : s.HasMatrix) {a : Byte} (ha : a ≤ 3#8) {stream : List Byte}
    (hlength : s.cwlen.toNat ≤ 256) (hbytes : s.mem.readBytes cwBase s.cwlen.toNat = some stream)
    (hu : s.placeData stream = some u) :
    execAll [.mxdata, .msksel, .mskapply (u.chosenMask.setWidth 8), .mxfmt a (u.chosenMask.setWidth 8)] s =
      some (u.sealed a.toNat).complete := by
  have hmatrix : u.HasMatrix := h.placeData hu
  have hselected : (u.putSelection u.maskResults).HasMatrix := { hmatrix with }
  have hdata : effect .mxdata s = .ok u := runMxdata_ok.2 ⟨cwlenInRange_iff.2 hlength, h.size_ne, stream, hbytes, hu⟩
  have hselect : effect .msksel u = .ok (u.putSelection u.maskResults) :=
    runMsksel_ok.2 ⟨hmatrix.size_ne, hmatrix.selectMask_eq⟩
  have happly : effect (.mskapply (u.chosenMask.setWidth 8)) (u.putSelection u.maskResults) =
      .ok ((u.putSelection u.maskResults).masked u.chosenMask.toNat) := by
    rw [← toNat_chosenMask_setWidth]
    exact runMskapply_ok.2
      ⟨maskInRange_iff.2 (chosenMask_setWidth_le u), hselected.size_ne, hselected.maskMatrix_eq _⟩
  have hformat : effect (.mxfmt a (u.chosenMask.setWidth 8)) ((u.putSelection u.maskResults).masked u.chosenMask.toNat) =
      .ok (u.sealed a.toNat) := by
    rw [effect_mxfmt (s := (u.putSelection u.maskResults).masked u.chosenMask.toNat) hselected.size_ne ha
      (chosenMask_setWidth_le u), toNat_chosenMask_setWidth, State.sealed]
  rw [execAll_cons_of_effect hdata, execAll_cons_of_effect hselect, execAll_cons_of_effect happly, execAll_singleton hformat]

end Chosen

/-! ### The first half -/

/-- The state with the plane M that holds the placed data, and the count of its bits (R186). -/
def State.withData (s : State) (m : Plane) (k : Nat) : State := { s with planeM := m, bitcnt := BitVec.ofNat 12 k }

section WithData

variable (s : State) (m : Plane) (k : Nat)

@[simp] theorem State.withData_cfg : (s.withData m k).cfg = s.cfg := rfl
@[simp] theorem State.withData_ver : (s.withData m k).ver = s.ver := rfl
@[simp] theorem State.withData_cap : (s.withData m k).cap = s.cap := rfl
@[simp] theorem State.withData_cwlen : (s.withData m k).cwlen = s.cwlen := rfl
@[simp] theorem State.withData_size : (s.withData m k).size = s.size := rfl
@[simp] theorem State.withData_bitcnt : (s.withData m k).bitcnt = BitVec.ofNat 12 k := rfl
@[simp] theorem State.withData_mem : (s.withData m k).mem = s.mem := rfl
@[simp] theorem State.withData_planeM : (s.withData m k).planeM = m := rfl
@[simp] theorem State.withData_planeR : (s.withData m k).planeR = s.planeR := rfl

end WithData

/-- The built symbol with its data placed in the plane m (R186, R221). -/
def State.filledSymbol (s : State) (level v : Nat) (p : List Byte) (m : Plane) : State :=
  (s.buildSymbol level v p).withData m (8 * (dOf v + nOf v))

section FilledSymbol

variable (s : State) (level : Nat) {v : Nat} (p : List Byte) (m : Plane)

@[simp] theorem State.filledSymbol_cfg : (s.filledSymbol level v p m).cfg = s.cfg := by simp [State.filledSymbol]
@[simp] theorem State.filledSymbol_ver : (s.filledSymbol level v p m).ver = BitVec.ofNat 32 v := by simp [State.filledSymbol]
@[simp] theorem State.filledSymbol_planeM : (s.filledSymbol level v p m).planeM = m := by simp [State.filledSymbol]
@[simp] theorem State.filledSymbol_planeR : (s.filledSymbol level v p m).planeR = (s.buildSymbol level v p).planeR := by
  simp [State.filledSymbol]
@[simp] theorem State.filledSymbol_mem : (s.filledSymbol level v p m).mem = (s.buildSymbol level v p).mem := by
  simp [State.filledSymbol]
@[simp] theorem State.filledSymbol_bitcnt :
    (s.filledSymbol level v p m).bitcnt = BitVec.ofNat 12 (8 * (dOf v + nOf v)) := by simp [State.filledSymbol]
@[simp] theorem State.filledSymbol_size : (s.filledSymbol level v p m).size = BitVec.ofNat 6 (4 * v + 17) := by
  simp [State.filledSymbol, sideOf]

theorem State.filledSymbol_cap (hv : 1 ≤ v ∧ v ≤ 5) :
    (s.filledSymbol level v p m).cap = BitVec.ofNat 16 (nOf v * 256 + dOf v) := by
  simp [State.filledSymbol, capWord_eq hv]

theorem State.filledSymbol_cwlen (hv : 1 ≤ v ∧ v ≤ 5) :
    (s.filledSymbol level v p m).cwlen = BitVec.ofNat 32 (dOf v + nOf v) := by
  simp [State.filledSymbol, capacityOf_eq_dOf hv, capacityOf_eq_nOf hv]

end FilledSymbol

section Build

variable (s : State) (level : Nat) {v : Nat} (p : List Byte)

/-- The matrix that ENCODE's first half draws is written, whatever the state held. -/
theorem hasMatrix_buildSymbol (hv : 1 ≤ v ∧ v ≤ 5) : (s.buildSymbol level v p).HasMatrix := by
  have hsize : ((State.resetWith s.cfg).buildSymbol level v p).size ≠ 0#6 := by
    rw [State.buildSymbol_size]
    exact (legalSize_sideOf hv).2
  have h := ((inv_resetWith s.cfg).buildSymbol hv level p).hasMatrix hsize
  have hS : (s.buildSymbol level v p).size = ((State.resetWith s.cfg).buildSymbol level v p).size := by
    rw [State.buildSymbol_size, State.buildSymbol_size]
  have hM : (s.buildSymbol level v p).planeM = ((State.resetWith s.cfg).buildSymbol level v p).planeM := by
    rw [planeM_buildSymbol, planeM_buildSymbol, State.resetWith]
  have hR : (s.buildSymbol level v p).planeR = ((State.resetWith s.cfg).buildSymbol level v p).planeR := by
    rw [planeR_buildSymbol, planeR_buildSymbol, State.resetWith]
  exact ⟨hM ▸ h.shapeM, hR ▸ h.shapeR, hS ▸ h.size, hS ▸ h.size_ne, hM ▸ h.writtenM, hR ▸ h.writtenR⟩

/-- The error-correction codewords of a payload (R154, R221). -/
def State.symbolEc (s : State) (v : Nat) (p : List Byte) : List Byte :=
  s.rom.remainder ((List.range (dOf v)).map (dataByte p)) (s.rom.buildGen (nOf v))

variable {j : Nat} (hv : 1 ≤ v ∧ v ≤ 5)

theorem length_symbolEc : (s.symbolEc v p).length = nOf v := remainder_buildGen_length ..

theorem toNat_ofNat_eight {n : Nat} (hn : n ≤ 108) : (BitVec.ofNat 8 n).toNat = n := by
  rw [BitVec.toNat_ofNat]
  omega

/-- RSENC appends the error-correction codewords to the data codewords that DENC has written. -/
theorem effect_rsenc_putData : effect (.rsenc (BitVec.ofNat 8 (dOf v)) (BitVec.ofNat 8 (nOf v))) (s.putData (dOf v) p) =
    .ok ((s.putData (dOf v) p).putEc (dOf v) (nOf v) (dataCodewords (dOf v) p)) := by
  obtain ⟨hd, hn⟩ := dOf_le v
  have hd8 : (BitVec.ofNat 8 (dOf v)).toNat = dOf v := toNat_ofNat_eight hd
  have hn8 : (BitVec.ofNat 8 (nOf v)).toNat = nOf v := toNat_ofNat_eight (by omega)
  refine runRsenc_ok.2 ⟨streamInRange_iff.2 (by omega), dataCodewords (dOf v) p, ?_, by rw [hd8, hn8]⟩
  rw [hd8]
  exact Memory.readBytes_eq_some.2 ⟨dataCodewords_length .., fun k hk => by
    rw [cwBase, read_putData s p hk, getElem?_dataCodewords p hk]⟩

include hv

theorem symbolStream_eq : s.symbolStream v p = (List.range (dOf v)).map (dataByte p) ++ s.symbolEc v p := by
  rw [State.symbolStream, State.symbolEc, dataCodewords_eq_map, capacityOf_eq_dOf hv, capacityOf_eq_nOf hv]

theorem read_buildSymbol_data (hj : j < dOf v) :
    (s.buildSymbol level v p).mem.read (0x200 + j) = some (dataByte p j) := by
  have := dOf_le v
  rw [mem_buildSymbol, capacityOf_eq_dOf hv, read_putEc_outside _ _ (by omega) (by omega), read_putData _ _ hj]

theorem read_buildSymbol_ec (hj : j < nOf v) :
    (s.buildSymbol level v p).mem.read (0x200 + dOf v + j) = (s.symbolEc v p)[j]? := by
  rw [mem_buildSymbol, capacityOf_eq_dOf hv, capacityOf_eq_nOf hv, read_putEc _ _ hj, dataCodewords_eq_map, State.symbolEc,
    State.putData_rom]

theorem read_buildSymbol_gen (hj : j ≤ nOf v) :
    (s.buildSymbol level v p).mem.read (0x300 + j) = (s.rom.buildGen (nOf v))[j]? := by
  have := dOf_le v
  rw [mem_buildSymbol, capacityOf_eq_dOf hv, capacityOf_eq_nOf hv, read_putEc_gen _ _ (by omega) hj, State.putData_rom]

theorem length_symbolStream : (s.symbolStream v p).length = dOf v + nOf v := by
  rw [symbolStream_length, capacityOf_eq_dOf hv, capacityOf_eq_nOf hv]

/-- MXDATA reads from CW the stream that ENCODE has just written. -/
theorem readBytes_buildSymbol :
    (s.buildSymbol level v p).mem.readBytes cwBase (dOf v + nOf v) = some (s.symbolStream v p) := by
  refine Memory.readBytes_eq_some.2 ⟨length_symbolStream s p hv, fun k hk => ?_⟩
  rw [symbolStream_eq s p hv, cwBase]
  by_cases hdata : k < dOf v
  · rw [read_buildSymbol_data s level p hv hdata, List.getElem?_append_left (by simpa using hdata)]
    simp [hdata]
  · obtain ⟨j, rfl⟩ := Nat.exists_eq_add_of_le (not_lt.1 hdata)
    rw [← Nat.add_assoc, read_buildSymbol_ec s level p hv (by omega), List.getElem?_append_right (by simp)]
    simp

theorem toNat_cwlen_buildSymbol : (s.buildSymbol level v p).cwlen.toNat = dOf v + nOf v := by
  have := dOf_le v
  rw [State.buildSymbol_cwlen, capacityOf_eq_dOf hv, capacityOf_eq_nOf hv, BitVec.toNat_ofNat]
  omega

/-- The placement of the stream in the fresh matrix, which has room for all its bits. -/
theorem exists_placeData_buildSymbol : ∃ m, (s.buildSymbol level v p).placeData (s.symbolStream v p) =
    some (s.filledSymbol level v p m) := by
  obtain ⟨m, hdata, -⟩ := exists_placeData (hasMatrix_buildSymbol s level p hv) (s.symbolStream v p)
  have hroom := le_length_dataCells s level p hv
  rw [State.buildSymbol_size, toNat_sideOf hv, length_symbolStream s p hv, min_eq_left hroom] at hdata
  exact ⟨m, hdata⟩

theorem effect_capof : effect (.capof (BitVec.ofNat 8 v)) s = .ok { s with cap := capWord v } := by
  have hv8 : (BitVec.ofNat 8 v).toNat = v := toNat_ofNat_eight (by omega)
  exact runCapof_ok.2 ⟨versionInRange_iff.2 (by omega), by rw [hv8]⟩

/-- The ten single commands of the first half (R222). -/
theorem execAll_buildSymbol {a : Byte} (ha : a ≤ 3#8) (hp : PayloadIs s p) (hversion : v = versionFor s.len.toNat)
    (haccepted : Accepted s.cfg.overflow p.length (dOf v)) (i : Instr) (is : List Instr) :
    execAll (.verfor :: .capof (BitVec.ofNat 8 v) :: .denc :: .rsenc (BitVec.ofNat 8 (dOf v)) (BitVec.ofNat 8 (nOf v)) ::
      .mxinit (BitVec.ofNat 8 v) :: .mxfind :: .mxsep :: .mxtime :: .mxdark :: .mxfmt a 0#8 :: i :: is) s =
      execAll (i :: is) (s.buildSymbol a.toNat v p) := by
  have hv8 : (BitVec.ofNat 8 v).toNat = v := toNat_ofNat_eight (by omega)
  have hverfor : effect .verfor s = .ok { s with ver := BitVec.ofNat 32 v } := by
    rw [hversion]
    rfl
  generalize hregisters : ({ s with ver := BitVec.ofNat 32 v, cap := capWord v } : State) = s2
  have hver : s2.ver.toNat = v := by
    rw [← hregisters, BitVec.toNat_ofNat]
    omega
  have hdenc : effect .denc s2 = .ok (s2.putData (dOf v) p) := by
    have hpayload : PayloadIs s2 p := hregisters ▸ hp
    have haccepted' : Accepted s2.cfg.overflow p.length (dOf s2.ver.toNat) := by
      rw [hver, ← hregisters]
      exact haccepted
    have := effect_denc (by omega) hpayload haccepted'
    rwa [hver] at this
  generalize hstream : (s2.putData (dOf v) p).putEc (dOf v) (nOf v) (dataCodewords (dOf v) p) = s4
  have hinit : effect (.mxinit (BitVec.ofNat 8 v)) s4 = .ok (s4.initMatrix v) := by
    have := effect_mxinit (v := BitVec.ofNat 8 v) (by omega) s4
    rwa [hv8] at this
  have hsize : (s4.initMatrix v).size ≠ 0#6 := (legalSize_sideOf hv).2
  have hbuild : s.buildSymbol a.toNat v p = ((s4.initMatrix v).placeStructure).placeFormat a.toNat (0#8).toNat := by
    rw [State.buildSymbol, capacityOf_eq_dOf hv, capacityOf_eq_nOf hv, hregisters, hstream]
    rfl
  rw [execAll_cons_of_effect hverfor, execAll_cons_of_effect (effect_capof _ hv), hregisters, execAll_cons_of_effect hdenc,
    execAll_cons_of_effect (effect_rsenc_putData s2 p), hstream, execAll_cons_of_effect hinit, execAll_structure hsize,
    execAll_complete, hbuild]
  exact execAll_cons_of_effect (effect_mxfmt (by simpa [State.placeStructure] using hsize) ha (by decide)) is

end Build

/-! ### ENCODE -/

/-- An accepted payload passes ENCODE's checks, and no read of it fails: the built matrix is filled and sealed (R221). -/
theorem exists_effect_encode {a : Byte} {s : State} {p : List Byte} {v : Nat} (ha : a ≤ 3#8) (hp : PayloadIs s p)
    (hversion : IsVersionFor p.length v) (haccepted : Accepted s.cfg.overflow p.length (dOf v)) :
    ∃ m, (s.buildSymbol a.toNat v p).placeData (s.symbolStream v p) =
        some (s.filledSymbol a.toNat v p m) ∧
      effect (.encode a) s = .ok ((s.filledSymbol a.toNat v p m).sealed a.toNat) := by
  have hv : 1 ≤ v ∧ v ≤ 5 := ⟨hversion.1, hversion.2.1⟩
  have hchosen : versionFor s.len.toNat = v := by rw [← hp.1, ← eq_versionFor_of_isVersionFor hversion]
  obtain ⟨hlength, hfits⟩ := haccepted
  rw [← capacityOf_eq_dOf hv, hp.1] at hfits
  rw [hp.1] at hlength
  obtain ⟨m, hdata⟩ := exists_placeData_buildSymbol s a.toNat p hv
  refine ⟨m, hdata, runEncode_ok.2 ⟨levelInRange_iff.2 ha, hlength, ?_, p, payloadBytes_of_payloadIs hp, ?_⟩⟩
  · rw [hchosen]
    exact hfits
  · rw [hchosen]
    exact finishSymbol_eq_sealed (hasMatrix_buildSymbol s a.toNat p hv) a.toNat hdata

/-- Settles O42: both sides place the same stream in the same matrix, and end in the same four steps. -/
theorem encodeEqualsTheCommandSequence : Obligations.EncodeEqualsTheCommandSequence := by
  intro a s p v ha hp hversion haccepted
  have hv : 1 ≤ v ∧ v ≤ 5 := ⟨hversion.1, hversion.2.1⟩
  have hbounds := dOf_le v
  obtain ⟨m, hdata, heffect⟩ := exists_effect_encode ha hp hversion haccepted
  generalize s.filledSymbol a.toNat v p m = u at hdata heffect
  have hchosen : v = versionFor s.len.toNat := by rw [← hp.1, ← eq_versionFor_of_isVersionFor hversion]
  have hexec : exec (.encode a) s = .next (u.sealed a.toNat).complete := exec_of_effect heffect
  have hmaskid : (u.sealed a.toNat).complete.maskid = u.chosenMask := by simp
  have hrun := execAll_sealed (hasMatrix_buildSymbol s a.toNat p hv) ha
    (by rw [toNat_cwlen_buildSymbol s a.toNat p hv]; omega)
    (by rw [toNat_cwlen_buildSymbol s a.toNat p hv]; exact readBytes_buildSymbol s a.toNat p hv) hdata
  rw [← execAll_buildSymbol s p hv ha hp hchosen haccepted, ← hmaskid] at hrun
  generalize (u.sealed a.toNat).complete = t at hexec hrun
  exact ⟨t, t, hexec, hrun, rfl⟩

/-! ### What ENCODE reads (R224) -/

section SameMatrix

variable {s s' : State} (hM : s.planeM = s'.planeM) (hR : s.planeR = s'.planeR) (hsize : s.size = s'.size)

include hM hR hsize

theorem maskResults_congr : s.maskResults = s'.maskResults := by
  simp only [State.maskResults, State.maskScore, State.maskedCopy, hM, hR, hsize]

theorem chosenMask_congr : s.chosenMask = s'.chosenMask := by
  rw [State.chosenMask, State.chosenMask, State.putSelection_maskid, State.putSelection_maskid, maskResults_congr hM hR hsize]

/-- The sealed planes depend on the matrix and the bit order alone. -/
theorem sealed_planes_congr (horder : s.cfg.bitOrder = s'.cfg.bitOrder) (level : Nat) :
    (s.sealed level).planeM = (s'.sealed level).planeM ∧ (s.sealed level).planeR = (s'.sealed level).planeR := by
  have hcopy : s.maskedCopy s.chosenMask.toNat = s'.maskedCopy s.chosenMask.toNat := by
    simp only [State.maskedCopy, hM, hR, hsize]
  rw [State.sealed_planeM, State.sealed_planeM, State.sealed_planeR, State.sealed_planeR, hcopy, hR, horder, hsize,
    chosenMask_congr hM hR hsize]
  exact ⟨rfl, rfl⟩

end SameMatrix

/-- The same stream placed in the same matrix gives the same plane. -/
theorem planeM_of_placeData_congr {s s' u u' : State} {stream : List Byte} (hM : s.planeM = s'.planeM)
    (hR : s.planeR = s'.planeR) (hsize : s.size = s'.size) (hu : s.placeData stream = some u)
    (hu' : s'.placeData stream = some u') : u.planeM = u'.planeM := by
  obtain ⟨res, hplace, rfl⟩ := Option.map_eq_some_iff.1 hu
  obtain ⟨res', hplace', rfl⟩ := Option.map_eq_some_iff.1 hu'
  rw [hM, hR, hsize, hplace', Option.some.injEq] at hplace
  rw [hplace]

/-- Settles O43: the drawn matrix, the stream and the sealing depend on the payload, the level and the parameters alone. -/
theorem encodeDependsOnlyOnPayloadAndLevel : Obligations.EncodeDependsOnlyOnPayloadAndLevel := by
  intro a s s' t t' p v hrom hoverflow horder hp hp' ha hversion haccepted ht ht'
  have hv : 1 ≤ v ∧ v ≤ 5 := ⟨hversion.1, hversion.2.1⟩
  obtain ⟨m, hdata, heffect⟩ := exists_effect_encode ha hp hversion haccepted
  obtain ⟨m', hdata', heffect'⟩ := exists_effect_encode ha hp' hversion (hoverflow ▸ haccepted)
  have hsize : (s.buildSymbol a.toNat v p).size = (s'.buildSymbol a.toNat v p).size := by simp
  have hM : (s.buildSymbol a.toNat v p).planeM = (s'.buildSymbol a.toNat v p).planeM := by
    rw [planeM_buildSymbol, planeM_buildSymbol, horder]
  have hR : (s.buildSymbol a.toNat v p).planeR = (s'.buildSymbol a.toNat v p).planeR := by
    rw [planeR_buildSymbol, planeR_buildSymbol, horder]
  have hec : s.symbolEc v p = s'.symbolEc v p := by rw [State.symbolEc, hrom, State.symbolEc]
  have hstream : s.symbolStream v p = s'.symbolStream v p := by rw [symbolStream_eq s p hv, hec, symbolStream_eq s' p hv]
  have hm : m = m' := planeM_of_placeData_congr hM hR hsize (hstream ▸ hdata) hdata'
  subst hm
  have hcw : ∀ k < dOf v + nOf v,
      (s.buildSymbol a.toNat v p).mem.read (0x200 + k) = (s'.buildSymbol a.toNat v p).mem.read (0x200 + k) := by
    intro k hk
    by_cases hdata : k < dOf v
    · rw [read_buildSymbol_data s _ p hv hdata, read_buildSymbol_data s' _ p hv hdata]
    · obtain ⟨j, rfl⟩ := Nat.exists_eq_add_of_le (not_lt.1 hdata)
      rw [← Nat.add_assoc, read_buildSymbol_ec s _ p hv (by omega), read_buildSymbol_ec s' _ p hv (by omega), hec]
  have hgen : ∀ k ≤ nOf v,
      (s.buildSymbol a.toNat v p).mem.read (0x300 + k) = (s'.buildSymbol a.toNat v p).mem.read (0x300 + k) := by
    intro k hk
    rw [read_buildSymbol_gen s _ p hv hk, read_buildSymbol_gen s' _ p hv hk, hrom]
  have hR' : (s.filledSymbol a.toNat v p m).planeR = (s'.filledSymbol a.toNat v p m).planeR := by simpa using hR
  have hresults := maskResults_congr (by simp) hR' (by simp)
  have hmask := chosenMask_congr (by simp) hR' (by simp)
  obtain ⟨hplaneM, hplaneR⟩ := sealed_planes_congr (by simp) hR' (by simp) (by simpa using horder) a.toNat
  rw [← Host.Outcome.next.inj ((exec_of_effect heffect).symm.trans ht),
    ← Host.Outcome.next.inj ((exec_of_effect heffect').symm.trans ht')]
  simpa [hplaneM, hplaneR, hresults, hmask, State.filledSymbol_cap, State.filledSymbol_cwlen, hv] using And.intro hcw hgen

/-! ### What ENCODE writes (R221, R226) -/

section Sealed

variable {s : State} (h : s.HasMatrix) (level : Nat)

include h

theorem holdsFormat_sealed :
    HoldsFormat s.cfg.bitOrder s.size.toNat (s.sealed level).planeM (fmtWord level s.chosenMask.toNat) :=
  holdsFormat_placeFormat (s := (s.putSelection s.maskResults).masked s.chosenMask.toNat) h.le_side level s.chosenMask.toNat

theorem maskScore_le (m : Nat) : s.maskScore m ≤ 2590 :=
  penalty_le h.size.le_maxSize (penalty_maskedCopy h.inv h.size_ne m)

/-- PENTAB holds the eight scores, and the chosen mask is the first least of them. -/
theorem firstMinimum_sealed : FirstMinimum (fun m => ((s.sealed level).penaltyOf m).toNat) s.chosenMask.toNat := by
  refine firstMinimum_congr (firstMinimum_maskid_putSelection s (by simp [State.maskResults])) fun m hm => ?_
  have hpenalty : (s.sealed level).penaltyOf m = (s.putSelection s.maskResults).penaltyOf m := by simp [State.penaltyOf]
  have hscore : (s.maskResults.map Prod.snd).getD m 0 = s.maskScore m := by simp [State.maskResults, hm]
  have hle := maskScore_le h m
  rw [hpenalty, penaltyOf_putSelection s _ hm, hscore, BitVec.toNat_ofNat]
  omega

end Sealed

/-- ENCODE leaves every register that its row does not name (R48, R221). -/
theorem complete_eq_of_effect_encode {a : Byte} {s u : State} (hu : effect (.encode a) s = .ok u) :
    u.complete = finished { s with
      ver := u.ver, cap := u.cap, cwlen := u.cwlen, size := u.size, bitcnt := u.bitcnt, fmt := u.fmt, mem := u.mem
      planeM := u.planeM, planeR := u.planeR, planeS := u.planeS, pentab := u.pentab, maskid := u.maskid } := by
  have hkeeps := keepsUnlisted_effect hu
  have hresult : u.result = s.result := hkeeps.result (by simp [Instr.mnemonic])
  have hreport := keepsReport_effect (.encode a) s
  rw [hu] at hreport
  obtain ⟨hstatus, herrinfo⟩ := hreport
  rw [← hkeeps.cfg, ← hkeeps.ctrl, ← hkeeps.len, ← hkeeps.rom, ← hkeeps.hostQ, ← hkeeps.readLog, ← hkeeps.left,
    ← hkeeps.issued, ← hresult, ← hstatus, ← herrinfo]
  rfl

theorem encode_commandForm : CommandForm 0x60#8 true false (fun a _ => .encode a) := by
  refine commandForm_of_decode_maskA fun w hopc => ?_
  rw [decode, hopc]
  rfl

/-- Settles O41: an accepted payload meets no failing check and no unwritten cell, and the symbol is built, filled and sealed. -/
theorem encodeBuildsTheSymbol : Obligations.EncodeBuildsTheSymbol := by
  refine ⟨encode_commandForm, fun a s p v ha hrom hp hversion haccepted => ?_⟩
  have hv : 1 ≤ v ∧ v ≤ 5 := ⟨hversion.1, hversion.2.1⟩
  have hbounds := dOf_le v
  obtain ⟨m, hdata, heffect⟩ := exists_effect_encode ha hp hversion haccepted
  have hmatrix := (hasMatrix_buildSymbol s a.toNat p hv).placeData hdata
  have hcode : ∀ i < nOf v, evalAt (alpha i) ((List.range (dOf v)).map (dataByte p) ++ s.symbolEc v p) = 0#8 := by
    intro i hi
    rw [State.symbolEc, hrom]
    exact evalAt_alpha_codeword _ (by omega) hi
  have hside : (s.filledSymbol a.toNat v p m).size.toNat = 4 * v + 17 := by
    rw [State.filledSymbol_size]
    exact toNat_sideOf hv
  have hfmt : fmtWord a.toNat (s.filledSymbol a.toNat v p m).chosenMask.toNat =
      formatOf a.toNat (s.filledSymbol a.toNat v p m).chosenMask.toNat :=
    fmtWord_eq_formatOf _ ha _ (Nat.le_of_lt_succ (chosenMask_lt _))
  have hformat := holdsFormat_sealed hmatrix a.toNat
  have hfirst := firstMinimum_sealed hmatrix a.toNat
  have heq := complete_eq_of_effect_encode heffect
  have hexec := exec_of_effect heffect
  have hmem : ((s.filledSymbol a.toNat v p m).sealed a.toNat).mem = (s.buildSymbol a.toNat v p).mem := by simp
  rw [State.filledSymbol_cfg, hside, hfmt, ← State.sealed_maskid _ a.toNat] at hformat
  rw [← State.sealed_maskid _ a.toNat] at hfirst
  rw [State.sealed_ver, State.sealed_cap, State.sealed_cwlen, State.sealed_size, State.sealed_bitcnt, State.sealed_fmt, hfmt,
    ← State.sealed_maskid _ a.toNat, State.filledSymbol_ver, State.filledSymbol_cap _ _ _ _ hv,
    State.filledSymbol_cwlen _ _ _ _ hv, State.filledSymbol_size, State.filledSymbol_bitcnt] at heq
  generalize (s.filledSymbol a.toNat v p m).sealed a.toNat = u at hexec heq hmem hformat hfirst
  refine ⟨u.complete, s.symbolEc v p, hexec, heq, ?_, length_symbolEc s p, ?_, hcode, ?_, hformat, hfirst⟩
  all_goals rw [State.complete_mem, hmem]
  · exact fun j hj => read_buildSymbol_data s a.toNat p hv hj
  · exact fun j hj => read_buildSymbol_ec s a.toNat p hv hj
  · exact fun x hcw hgen => read_buildSymbol_outside s a.toNat p hv hcw hgen

end Sys2Proof.Machine
end
